-- ==== Sys2Proof/Word.lean ====
section
/-! DEFINITION. The word types of DDSDEC and the plain data its formats carry: bytes, registers, pixels, compression
kinds, and the requests that wait at the unit's ports. -/

namespace Sys2Proof

/-- One byte (`u8`, 00_scope.md R7). -/
abbrev Byte := BitVec 8

/-- One register word (`REG_W` = 32, 00_scope.md R6). -/
abbrev Word := BitVec 32

/-- Three 8-bit colour channels: the result of C.EXP565 and of the four colour operations (41_bc3_block.md R122). -/
structure Rgb where
  r : Byte
  g : Byte
  b : Byte
deriving DecidableEq, Repr, Inhabited

/-- An output pixel, format X: four 8-bit channels (30_encoding.md R80). -/
structure Pixel where
  r : Byte
  g : Byte
  b : Byte
  a : Byte
deriving DecidableEq, Repr, Inhabited

/-- The source's "CompressionKind" (40_dispatch.md R90). -/
inductive Kind where
  | none
  | bc1
  | bc3
  | unsupported (f : Word)
deriving DecidableEq, Repr

/-- Where an encoded word is presented. `command` is the unit's command port (format H). The others are the inputs of
the datapath operations: the formats T, A3, C2, P, W565 and B each select by the word's value, and the operations of
format `operands` have no opcode bits, so each has an input of its own (30_encoding.md R60, R88; log 3). -/
inductive Port where
  | command
  | tag
  | alphaSelector
  | colourCode
  | bitCount
  | exp565
  | block
  | parse
  | kindDecode
  | alphaSel
  | colourSel
  | texel
  | texelPut
  | image
  | unpCheck
  | unpChan
  | unpPixel
deriving DecidableEq, Repr

/-- One request: the bytes of an encoded word, least significant byte first (20_memory.md R41), and the port they are
presented at. A LOADSRC request carries its payload after the command word (30_encoding.md R84). -/
structure Request where
  port : Port
  bytes : List Byte
deriving DecidableEq, Repr

/-- Why the bytes of a request are no encoding. -/
inductive Reject where
  /-- Fewer or more bytes than the format has (a LOADSRC payload shorter or longer than its count among them). -/
  | wrongLength
  /-- A bit above the format's width is set (bits 71:68 of the nine bytes of a command, and the like). -/
  | paddingNotZero
deriving DecidableEq, Repr

end Sys2Proof
end

