-- ==== Sys2Proof/Config.lean ====
section
/-! DEFINITION. What the spec fixes once for the unit (00_scope.md R6), and the one source of the values it leaves free
(93_implementation_defined.md section 1). -/

namespace Sys2Proof.Config

/-- `BLOCK_BYTES` (00_scope.md R6). -/
def blockBytes : Nat := 16

/-- `TILE`: a block is 4x4 texels (00_scope.md R6). -/
def tile : Nat := 4

/-- `PIXEL_BYTES` (00_scope.md R6). -/
def pixelBytes : Nat := 4

/-- `BITCOUNTS`, the legal values of RGB_BIT_COUNT (00_scope.md R6). -/
def bitCounts : List Nat := [8, 16, 32, 64]

/-- The tag "no compression" (30_encoding.md R79). -/
def tagNone : Word := 0x00000000#32

/-- The tag "DXT1" (30_encoding.md R79; PRESUMED there, G3; log 18). -/
def tagDxt1 : Word := 0x31545844#32

/-- The tag "DXT5" (30_encoding.md R79; PRESUMED there, G3; log 18). -/
def tagDxt5 : Word := 0x35545844#32

/-- `ALPHAPIXELS | RGB`, the two flags UNP.CHECK wants (10_state.md R15; PRESUMED there, G2; log 18). -/
def requiredFlags : Word := 0x41#32

/-- The capacities a unit has unless told otherwise: unbounded, the spec's default for testing (92_eei_decisions.md,
open parameters; log 6). -/
def defaultCap : Option Nat := none

/-- The free values F1 to F4: the word drawn at a tick for a numbered purpose. It has no body: nothing can be proved of
what it is (log 8). -/
opaque freeWord (tick slot : Nat) : Word

end Sys2Proof.Config
end

