-- ==== Sys2Proof/Syntax.lean ====
section
/-! DEFINITION. The instructions: one constructor for each of the 48 rows of the opcode table. -/

namespace Sys2Proof

/-- The rows of spec/opcode_table.json, in the table's order. -/
inductive Instr where
  -- format H: host commands (30_encoding.md R84)
  | reset
  | wrcfg (a0 a1 : Word)
  | rdreg (a0 : Word)
  | loadsrc (n : Word) (payload : List Byte)
  | decode
  | atXY (x y : Word)
  | rddst (k : Word)
  | release
  | reservedCmd (cmd : BitVec 4)
  -- format T: the tag selects a path (30_encoding.md R79)
  | kindNone
  | kindBc1
  | kindBc3
  | kindUnsupported (f : Word)
  -- format B: a whole block (41_bc3_block.md R130)
  | bc3Block (v : BitVec 128)
  -- format A3: the alpha selector (30_encoding.md R70)
  | aEnd0
  | aEnd1
  | a7Lerp2
  | a7Lerp3
  | a7Lerp4
  | a7Lerp5
  | a7Lerp6
  | a7Lerp7
  | a5Lerp2
  | a5Lerp3
  | a5Lerp4
  | a5Lerp5
  | a5Zero
  | a5Max
  -- format C2: the colour code (30_encoding.md R71)
  | cEnd0
  | cEnd1
  | cMix21
  | cMix12
  -- format W565 (41_bc3_block.md R122)
  | cExp565 (c : BitVec 16)
  -- format P: the bit count selects the fetch (43_unpacker.md R164, R161)
  | unpFetch8 (x y : Word)
  | unpFetch16 (x y : Word)
  | unpFetch32 (x y : Word)
  | unpFetch64 (x y : Word)
  | unpBadbits (n : Word)
  -- operations with operands and no opcode bits
  | kindDecode (f : Word)
  | blkParse (v : BitVec 128)
  | aSel (t : BitVec 4)
  | cSel (t : BitVec 4)
  | bc3Texel (t : BitVec 4)
  | texelPut (x y p : Word)
  | bc3Image (w h : Word)
  | unpCheck (w h g n : Word)
  | unpChan (d : BitVec 64) (m : Word)
  | unpPixel (x y : Word)
deriving DecidableEq, Repr

end Sys2Proof
end

