-- ==== Sys2Proof/WellFormed.lean ====
section
/-! DEFINITION. Which terms of `Instr` stand for an encoding: the checks a word of the opcode table passes. -/

namespace Sys2Proof

/-- A term that some word encodes. Four rows have a check: LOADSRC carries as many payload bytes as its count says
(30_encoding.md R84), a reserved command has a code from 8 to 15, and the two default rows (KIND.UNSUPPORTED,
UNP.BADBITS) stand only for values that no row of higher priority takes (30_encoding.md, how to read the table). -/
def Instr.wellFormed : Instr → Bool
  | .loadsrc n payload => payload.length == n.toNat
  | .reservedCmd cmd => 8 ≤ cmd.toNat
  | .kindUnsupported f => f != Config.tagNone && f != Config.tagDxt1 && f != Config.tagDxt5
  | .unpBadbits n => !Config.bitCounts.contains n.toNat
  | .reset | .wrcfg _ _ | .rdreg _ | .decode | .atXY _ _ | .rddst _ | .release
  | .kindNone | .kindBc1 | .kindBc3
  | .bc3Block _
  | .aEnd0 | .aEnd1 | .a7Lerp2 | .a7Lerp3 | .a7Lerp4 | .a7Lerp5 | .a7Lerp6 | .a7Lerp7
  | .a5Lerp2 | .a5Lerp3 | .a5Lerp4 | .a5Lerp5 | .a5Zero | .a5Max
  | .cEnd0 | .cEnd1 | .cMix21 | .cMix12
  | .cExp565 _
  | .unpFetch8 _ _ | .unpFetch16 _ _ | .unpFetch32 _ _ | .unpFetch64 _ _
  | .kindDecode _ | .blkParse _ | .aSel _ | .cSel _ | .bc3Texel _ | .texelPut _ _ _
  | .bc3Image _ _ | .unpCheck _ _ _ _ | .unpChan _ _ | .unpPixel _ _ => true

end Sys2Proof
end

