-- ==== Sys2Proof/Decode.lean ====
section
/-! DEFINITION. Decoding: from the bytes presented at a port to an instruction, or a rejection by name. Then encoding,
written from the same tables of 30_encoding.md and spec/opcode_table.json. -/

namespace Sys2Proof

/-! ### Byte order and bit fields -/

/-- `LE(n, B, off)` of the bytes in the list, the first the least significant (00_scope.md R7, 20_memory.md R41). -/
def leNat : List Byte → Nat
  | [] => 0
  | b :: bs => b.toNat + 256 * leNat bs

/-- The `n` little-endian bytes of a value. -/
def leBytes : Nat → Nat → List Byte
  | 0, _ => []
  | n + 1, v => BitVec.ofNat 8 v :: leBytes n (v / 256)

/-- The field of `v` of `n` bits from bit `lo` (00_scope.md R7, `v[lo+n-1:lo]`). -/
def field (v lo n : Nat) : BitVec n := BitVec.ofNat n (v / 2 ^ lo)

/-! ### Decoding -/

/-- A command with no payload: bytes after its word are no part of an encoding (30_encoding.md R84). -/
def plainCommand (payload : List Byte) (i : Instr) : Except Reject Instr :=
  if payload = [] then .ok i else .error .wrongLength

/-- Format H: nine bytes hold the 68-bit word `cmd ++ a0 ++ a1` (30_encoding.md R84); bits 71:68 are zero (log 2). -/
def decodeCommand (bytes : List Byte) : Except Reject Instr :=
  if bytes.length < 9 then .error .wrongLength
  else
    let v := leNat (bytes.take 9)
    let payload := bytes.drop 9
    let a0 := field v 32 32
    let a1 := field v 0 32
    if 2 ^ 68 ≤ v then .error .paddingNotZero
    else
      match v / 2 ^ 64 with
      | 0 => plainCommand payload .reset
      | 1 => plainCommand payload (.wrcfg a0 a1)
      | 2 => plainCommand payload (.rdreg a0)
      | 3 => if payload.length = a0.toNat then .ok (.loadsrc a0 payload) else .error .wrongLength
      | 4 => plainCommand payload .decode
      | 5 => plainCommand payload (.atXY a0 a1)
      | 6 => plainCommand payload (.rddst a0)
      | 7 => plainCommand payload .release
      | _ => plainCommand payload (.reservedCmd (field v 64 4))

/-- Format T: all 32 bits of the tag are matched (30_encoding.md R79). -/
def decodeTag (f : Word) : Instr :=
  if f = Config.tagNone then .kindNone
  else if f = Config.tagDxt1 then .kindBc1
  else if f = Config.tagDxt5 then .kindBc3
  else .kindUnsupported f

/-- Format A3: the selector `MODE7 ++ code` (30_encoding.md R70); bit 3 is ignored for codes 0 and 1. -/
def decodeAlphaSelector (v : Nat) : Except Reject Instr :=
  match v with
  | 0 => .ok .aEnd0
  | 1 => .ok .aEnd1
  | 2 => .ok .a5Lerp2
  | 3 => .ok .a5Lerp3
  | 4 => .ok .a5Lerp4
  | 5 => .ok .a5Lerp5
  | 6 => .ok .a5Zero
  | 7 => .ok .a5Max
  | 8 => .ok .aEnd0
  | 9 => .ok .aEnd1
  | 10 => .ok .a7Lerp2
  | 11 => .ok .a7Lerp3
  | 12 => .ok .a7Lerp4
  | 13 => .ok .a7Lerp5
  | 14 => .ok .a7Lerp6
  | 15 => .ok .a7Lerp7
  | _ => .error .paddingNotZero

/-- Format C2: the colour code (30_encoding.md R71). -/
def decodeColourCode (v : Nat) : Except Reject Instr :=
  match v with
  | 0 => .ok .cEnd0
  | 1 => .ok .cEnd1
  | 2 => .ok .cMix21
  | 3 => .ok .cMix12
  | _ => .error .paddingNotZero

/-- Format P: the bit count selects the pixel length (30_encoding.md R75); the pixel's coordinates follow in two operand
words, which UNP.BADBITS ignores (log 4). -/
def decodeBitCount (v : Nat) : Instr :=
  let n := field v 0 32
  let x := field v 32 32
  let y := field v 64 32
  match n.toNat with
  | 8 => .unpFetch8 x y
  | 16 => .unpFetch16 x y
  | 32 => .unpFetch32 x y
  | 64 => .unpFetch64 x y
  | _ => .unpBadbits n

/-- An operand of four bits, a texel number (41_bc3_block.md R111). -/
def decodeTexelNumber (v : Nat) (i : BitVec 4 → Instr) : Except Reject Instr :=
  if v < 16 then .ok (i (field v 0 4)) else .error .paddingNotZero

/-- How many bytes an encoding at a port has, a LOADSRC payload apart: the width of its format in whole bytes
(30_encoding.md R60 and the `width` of each row of the opcode table; for format P also two operand words, log 4). -/
def portBytes : Port → Nat
  | .command => 9
  | .tag => 4
  | .alphaSelector => 1
  | .colourCode => 1
  | .bitCount => 12
  | .exp565 => 2
  | .block => 16
  | .parse => 16
  | .kindDecode => 4
  | .alphaSel => 1
  | .colourSel => 1
  | .texel => 1
  | .texelPut => 12
  | .image => 8
  | .unpCheck => 16
  | .unpChan => 12
  | .unpPixel => 8

/-- The instruction a word of the port's width is, at every port but the command port, whose payload varies. Each operand
stands at the bits its row of opcode_table.json gives it (its `encoding` and `source_fields`: for TEXEL.PUT x at 31:0, y at
63:32, p at 95:64; for BC3.IMAGE w at 31:0, h at 63:32); the coordinates after a bit count are log 4's. -/
def decodeOperands (p : Port) (v : Nat) : Except Reject Instr :=
  match p with
  | .command => .error .wrongLength
  | .tag => .ok (decodeTag (field v 0 32))
  | .alphaSelector => decodeAlphaSelector v
  | .colourCode => decodeColourCode v
  | .bitCount => .ok (decodeBitCount v)
  | .exp565 => .ok (.cExp565 (field v 0 16))
  | .block => .ok (.bc3Block (field v 0 128))
  | .parse => .ok (.blkParse (field v 0 128))
  | .kindDecode => .ok (.kindDecode (field v 0 32))
  | .alphaSel => decodeTexelNumber v .aSel
  | .colourSel => decodeTexelNumber v .cSel
  | .texel => decodeTexelNumber v .bc3Texel
  | .texelPut => .ok (.texelPut (field v 0 32) (field v 32 32) (field v 64 32))
  | .image => .ok (.bc3Image (field v 0 32) (field v 32 32))
  | .unpCheck => .ok (.unpCheck (field v 0 32) (field v 32 32) (field v 64 32) (field v 96 32))
  | .unpChan => .ok (.unpChan (field v 0 64) (field v 64 32))
  | .unpPixel => .ok (.unpPixel (field v 0 32) (field v 32 32))

/-- The instruction a request stands for: total on any bytes, a rejection by name where they are no encoding. -/
def decode (r : Request) : Except Reject Instr :=
  if r.port = .command then decodeCommand r.bytes
  else if r.bytes.length = portBytes r.port then decodeOperands r.port (leNat r.bytes)
  else .error .wrongLength

/-! ### Encoding -/

/-- The request of a value at a port, in the port's number of bytes. -/
def wordAt (p : Port) (v : Nat) : Request := ⟨p, leBytes (portBytes p) v⟩

/-- A command word `cmd ++ a0 ++ a1` and its payload (30_encoding.md R84). -/
def commandWord (cmd : Nat) (a0 a1 : Word) (payload : List Byte) : Request :=
  ⟨.command, leBytes 9 (cmd * 2 ^ 64 + a0.toNat * 2 ^ 32 + a1.toNat) ++ payload⟩

/-- A bit count and the two coordinate words after it (log 4). -/
def bitCountWord (n : Nat) (x y : Word) : Request :=
  wordAt .bitCount (n + x.toNat * 2 ^ 32 + y.toNat * 2 ^ 64)

/-- The request of a well-formed instruction; ignored argument fields are written as zero (95_test_vectors.md
section 4). -/
def encode : Instr → Request
  | .reset => commandWord 0 0#32 0#32 []
  | .wrcfg a0 a1 => commandWord 1 a0 a1 []
  | .rdreg a0 => commandWord 2 a0 0#32 []
  | .loadsrc n payload => commandWord 3 n 0#32 payload
  | .decode => commandWord 4 0#32 0#32 []
  | .atXY x y => commandWord 5 x y []
  | .rddst k => commandWord 6 k 0#32 []
  | .release => commandWord 7 0#32 0#32 []
  | .reservedCmd cmd => commandWord cmd.toNat 0#32 0#32 []
  | .kindNone => wordAt .tag Config.tagNone.toNat
  | .kindBc1 => wordAt .tag Config.tagDxt1.toNat
  | .kindBc3 => wordAt .tag Config.tagDxt5.toNat
  | .kindUnsupported f => wordAt .tag f.toNat
  | .bc3Block v => wordAt .block v.toNat
  | .aEnd0 => wordAt .alphaSelector 0
  | .aEnd1 => wordAt .alphaSelector 1
  | .a7Lerp2 => wordAt .alphaSelector 10
  | .a7Lerp3 => wordAt .alphaSelector 11
  | .a7Lerp4 => wordAt .alphaSelector 12
  | .a7Lerp5 => wordAt .alphaSelector 13
  | .a7Lerp6 => wordAt .alphaSelector 14
  | .a7Lerp7 => wordAt .alphaSelector 15
  | .a5Lerp2 => wordAt .alphaSelector 2
  | .a5Lerp3 => wordAt .alphaSelector 3
  | .a5Lerp4 => wordAt .alphaSelector 4
  | .a5Lerp5 => wordAt .alphaSelector 5
  | .a5Zero => wordAt .alphaSelector 6
  | .a5Max => wordAt .alphaSelector 7
  | .cEnd0 => wordAt .colourCode 0
  | .cEnd1 => wordAt .colourCode 1
  | .cMix21 => wordAt .colourCode 2
  | .cMix12 => wordAt .colourCode 3
  | .cExp565 c => wordAt .exp565 c.toNat
  | .unpFetch8 x y => bitCountWord 8 x y
  | .unpFetch16 x y => bitCountWord 16 x y
  | .unpFetch32 x y => bitCountWord 32 x y
  | .unpFetch64 x y => bitCountWord 64 x y
  | .unpBadbits n => bitCountWord n.toNat 0#32 0#32
  | .kindDecode f => wordAt .kindDecode f.toNat
  | .blkParse v => wordAt .parse v.toNat
  | .aSel t => wordAt .alphaSel t.toNat
  | .cSel t => wordAt .colourSel t.toNat
  | .bc3Texel t => wordAt .texel t.toNat
  | .texelPut x y p => wordAt .texelPut (x.toNat + y.toNat * 2 ^ 32 + p.toNat * 2 ^ 64)
  | .bc3Image w h => wordAt .image (w.toNat + h.toNat * 2 ^ 32)
  | .unpCheck w h g n =>
    wordAt .unpCheck (w.toNat + h.toNat * 2 ^ 32 + g.toNat * 2 ^ 64 + n.toNat * 2 ^ 96)
  | .unpChan d m => wordAt .unpChan (d.toNat + m.toNat * 2 ^ 64)
  | .unpPixel x y => wordAt .unpPixel (x.toNat + y.toNat * 2 ^ 32)

/-! ### Words of the opcode table -/

/-- The port at which a bare word of the opcode table is presented. The table's rows of one width share their words
among formats, so a width (and where it must, a value) is taken to mean one port (log 5). -/
def tablePort (nbits w : Nat) : Port :=
  if nbits ≤ 2 then .colourCode
  else if nbits ≤ 4 then .alphaSelector
  else if nbits ≤ 8 then (if w < 4 then .colourCode else .alphaSelector)
  else if nbits ≤ 16 then .exp565
  else if nbits ≤ 32 then (if Config.bitCounts.contains w then .bitCount else .tag)
  else if nbits ≤ 64 then .image
  else if nbits ≤ 72 then .command
  else if nbits ≤ 96 then .texelPut
  else .block

/-- The payload that stands after a command word when every bit above the word is zero: as many zero bytes as a LOADSRC
word counts, none after another word. -/
def zeroPayload (p : Port) (w : Nat) : List Byte :=
  if p = .command ∧ w / 2 ^ 64 = 3 then List.replicate (field w 32 32).toNat 0#8 else []

/-- A word of the opcode table laid out as a request, every bit above it zero. -/
def tableRequest (nbits w : Nat) : Request :=
  ⟨tablePort nbits w, leBytes (portBytes (tablePort nbits w)) w ++ zeroPayload (tablePort nbits w) w⟩

/-- The instruction the decoder reads from a word of the opcode table. -/
def decodeTableWord (nbits w : Nat) : Option Instr :=
  (decode (tableRequest nbits w)).toOption

end Sys2Proof
end

