-- ==== Sys2Proof/Machine/State.lean ====
section
/-! DEFINITION. The state of the unit as plain data, the reasons a step can stop, and the state after reset. -/

namespace Sys2Proof.Machine

/-- A memory: (address, byte) pairs in canonical form, addresses strictly rising (`Memory.wf`). An address that is not
listed holds any value (10_state.md R26, F1; log 7). -/
abbrev Memory := List Host.Cell

/-- The nine configuration registers, numbers 0 to 8 (10_state.md R14). -/
structure CfgRegs where
  width : Word
  height : Word
  fourcc : Word
  pfFlags : Word
  rgbBitCount : Word
  rmask : Word
  gmask : Word
  bmask : Word
  amask : Word
deriving DecidableEq, Repr

/-- The seven block latches (10_state.md R17). -/
structure Latches where
  a0 : Byte
  a1 : Byte
  alo : BitVec 16
  ahi : Word
  c0 : BitVec 16
  c1 : BitVec 16
  cix : Word
deriving DecidableEq, Repr

/-- The cursor: block `(bx, by)` and texel `(i, j)` (10_state.md R20). -/
structure Cursor where
  blockX : Nat
  blockY : Nat
  texelI : Nat
  texelJ : Nat
deriving DecidableEq, Repr

/-- A response: format Q, `ok ++ val` (30_encoding.md R85). -/
structure Response where
  ok : Bool
  val : Word
deriving DecidableEq, Repr

/-- The MODEL's own fields: what a datapath operation gives when it is presented on its own (log 11). -/
structure Results where
  /-- KIND.DECODE -/
  kind : Kind
  /-- A.SEL: `code` -/
  acode : BitVec 3
  /-- C.SEL: `cc` -/
  ccode : BitVec 2
  /-- A.END0 to A5.MAX: `alpha` -/
  alpha : Byte
  /-- C.EXP565, C.END0 to C.MIX12: `(R, G, B)` -/
  rgb : Rgb
  /-- BC3.TEXEL, UNP.PIXEL: `(R, G, B, A)` -/
  pixel : Pixel
  /-- BC3.BLOCK: the sixteen texels, number `t = 4j + i` at place `t` -/
  tile : List Pixel
  /-- UNP.FETCH: `d` -/
  d : BitVec 64
  /-- UNP.CHAN -/
  chan : Byte
deriving DecidableEq, Repr

/-- The scratch of BC3.IMAGE while its loop runs: latches, cursor and the destination (42_bc3_image.md R146). -/
structure Work where
  latches : Latches
  cursor : Cursor
  dst : Memory
deriving DecidableEq, Repr

/-- The codes of STATUS.ERR other than "none" (60_exceptions.md R190): four errors, three refusals. -/
inductive Cause where
  | ioError
  | formatError
  | unsupportedFormatError
  | decodeError
  | refBc1External
  | refZeroDim
  | refDstCap
deriving DecidableEq, Repr

/-- The whole state of one unit (10_state.md R10), the two capacities of its memories (00_scope.md R6), and the model's
own fields. -/
structure State where
  /-- registers 0 to 8 (10_state.md R11 to R18) -/
  cfg : CfgRegs
  /-- register 9 (10_state.md R22) -/
  status : Word
  /-- register 10 (10_state.md R23) -/
  errInfo0 : Word
  /-- register 11 (10_state.md R23) -/
  errInfo1 : Word
  /-- SRC, by byte offset (10_state.md R25) -/
  src : Memory
  /-- SRC_LEN (10_state.md R25) -/
  srcLen : Nat
  /-- DST, by byte address, pixel `p` at `4p .. 4p+3` (10_state.md R26, 20_memory.md R44) -/
  dst : Memory
  /-- the block latches (10_state.md R17) -/
  latches : Latches
  /-- the cursor (10_state.md R20) -/
  cursor : Cursor
  /-- SRC_CAP in bytes, `none` for unbounded (00_scope.md R6; log 6) -/
  srcCap : Option Nat
  /-- DST_CAP in pixels, `none` for unbounded (00_scope.md R6; log 6) -/
  dstCap : Option Nat
  /-- the model's own: results of datapath operations presented on their own (log 11) -/
  results : Results
  /-- the model's own: requests not yet served, the next one first (log 1) -/
  pending : List Request
  /-- the model's own: the last response given (log 12) -/
  response : Option Response
  /-- the model's own: the tick the next free values are drawn at (log 8) -/
  freeTick : Nat
deriving DecidableEq, Repr

/-- Why the machine stops. No host command reaches one of these from a state that satisfies `UnitInv` (70_reset_and_hazards.md
R227); a datapath operation presented on its own can. -/
inductive Fault where
  /-- UNP.FETCH, UNP.PIXEL (and DECODE, AT, KIND.BC3, BC3.IMAGE outside `UnitInv`): MemRead(SRC, off, n) with `off + n`
  above SRC_LEN, which 20_memory.md R42 leaves undefined. Safe: the model stops. -/
  | srcOutOfRange (off n : Nat)
  /-- The same operations: a byte below SRC_LEN that SRC does not list. No load leaves such a byte. Safe. -/
  | srcUnlisted (off : Nat)
  /-- TEXEL.PUT (and the loop of BC3.IMAGE outside its capacity check): MemWrite(DST, p) with `p` at or past DST_CAP,
  a pixel that does not exist (20_memory.md R40). Safe. -/
  | dstOutOfRange (p : Nat)
deriving DecidableEq, Repr

/-- Why a request has no meaning. -/
inductive Refusal where
  /-- exec: an instruction this model gives no meaning yet. None is left. Safe. -/
  | notModelled (mnemonic : String)
  /-- step: the request's bytes are no encoding at its port (log 2). Safe. -/
  | undecodable (why : Reject)
deriving DecidableEq, Repr

/-- The results before any operation: zeros (DESIGN CHOICE, log 11). -/
def Results.zero : Results :=
  { kind := .none, acode := 0#3, ccode := 0#2, alpha := 0#8, rgb := ⟨0#8, 0#8, 0#8⟩, pixel := ⟨0#8, 0#8, 0#8, 0#8⟩,
    tile := List.replicate 16 ⟨0#8, 0#8, 0#8, 0#8⟩, d := 0#64, chan := 0#8 }

/-- The latches before any block: zeros (10_state.md R17 gives none; DESIGN CHOICE, log 10). -/
def Latches.zero : Latches := ⟨0#8, 0#8, 0#16, 0#32, 0#16, 0#16, 0#32⟩

/-- The configuration registers after reset: zeros (10_state.md R29). -/
def CfgRegs.zero : CfgRegs := ⟨0#32, 0#32, 0#32, 0#32, 0#32, 0#32, 0#32, 0#32, 0#32⟩

/-- The unit right after power-on, which leaves it as RESET does (10_state.md R29, 70_reset_and_hazards.md R220): every
register 0, SRC empty, no byte of DST with a known value. -/
def State.reset : State :=
  { cfg := CfgRegs.zero, status := 0#32, errInfo0 := 0#32, errInfo1 := 0#32,
    src := [], srcLen := 0, dst := [],
    latches := Latches.zero, cursor := ⟨0, 0, 0, 0⟩,
    srcCap := Config.defaultCap, dstCap := Config.defaultCap,
    results := Results.zero, pending := [], response := none, freeTick := 0 }

end Sys2Proof.Machine
end

