-- ==== Sys2Proof/Machine/Flags.lean ====
section
/-! DEFINITION. The three predicates of the datapath (10_state.md R21), the fields of STATUS (10_state.md R22) and the
numbers of the error codes (60_exceptions.md R190). -/

namespace Sys2Proof.Machine

/-! ### Predicates -/

/-- `MODE7`: `A0 > A1`, unsigned and strict (10_state.md R21). -/
def mode7 (a0 a1 : Byte) : Bool := a1.toNat < a0.toNat

/-- `INSIDE(x, y)` in an image of `w` by `h` pixels (10_state.md R21). -/
def inside (w h x y : Nat) : Bool := x < w && y < h

/-- `STRADDLE(t)`: the code of texel 5 lies across the two words (10_state.md R21). -/
def straddle (t : Nat) : Bool := 3 * t == 15

/-! ### STATUS -/

/-- Values of STATUS.STATE. -/
def stIdle : BitVec 2 := 0#2
def stReady : BitVec 2 := 1#2
def stError : BitVec 2 := 2#2

/-- Values of STATUS.SURF. -/
def surfNone : BitVec 2 := 0#2
def surfMaterialised : BitVec 2 := 1#2
def surfLazy : BitVec 2 := 2#2

/-- STATUS.STATE, bits 1:0. -/
def statusState (w : Word) : BitVec 2 := w.extractLsb' 0 2

/-- STATUS.SURF, bits 3:2. -/
def statusSurf (w : Word) : BitVec 2 := w.extractLsb' 2 2

/-- STATUS.ERR, bits 7:4. -/
def statusErr (w : Word) : BitVec 4 := w.extractLsb' 4 4

/-- STATUS.PROTO, bit 8. -/
def statusProto (w : Word) : Bool := w.getLsbD 8

/-- STATUS with STATE, SURF and ERR written; PROTO and the bits above it stay. -/
def setOutcome (st surf : BitVec 2) (err : BitVec 4) (w : Word) : Word :=
  w.extractLsb' 8 24 ++ (err ++ surf ++ st)

/-- STATUS with PROTO set; every other bit stays (60_exceptions.md R199). -/
def setProto (w : Word) : Word := w ||| 0x100#32

/-- The number of an error or refusal (60_exceptions.md R190). -/
def causeCode (c : Cause) : BitVec 4 :=
  match c with
  | .ioError => 1#4
  | .formatError => 2#4
  | .unsupportedFormatError => 3#4
  | .decodeError => 4#4
  | .refBc1External => 8#4
  | .refZeroDim => 9#4
  | .refDstCap => 10#4

/-- The unit is in IDLE, in READY, in ERROR (10_state.md R24). -/
def isIdle (s : State) : Bool := statusState s.status == stIdle
def isReady (s : State) : Bool := statusState s.status == stReady
def isError (s : State) : Bool := statusState s.status == stError

/-- A materialised surface is live (44_surface.md R180). -/
def isMaterialised (s : State) : Bool := statusSurf s.status == surfMaterialised

/-- The contents of ERRINFO0 and ERRINFO1 are defined: in ERROR with code 3 only (10_state.md R23, F3). -/
def errInfoDefined (s : State) : Bool :=
  isError s && statusErr s.status == causeCode .unsupportedFormatError

end Sys2Proof.Machine
end

