-- ==== Sys2Proof/Machine/Operands.lean ====
section
/-! DEFINITION. The operand forms: register numbers, the fields of a block, of an RGB565 word and of a pixel word, the
codes of a texel, and the addresses of blocks and pixels. -/

namespace Sys2Proof.Machine

/-! ### Configuration registers (10_state.md R14) -/

/-- The configuration register of a number, 0 to 8. -/
def readCfg (n : Nat) (c : CfgRegs) : Option Word :=
  match n with
  | 0 => some c.width
  | 1 => some c.height
  | 2 => some c.fourcc
  | 3 => some c.pfFlags
  | 4 => some c.rgbBitCount
  | 5 => some c.rmask
  | 6 => some c.gmask
  | 7 => some c.bmask
  | 8 => some c.amask
  | _ => none

/-- The configuration registers with number `n` set to `v`, unchanged in every bit; no register above 8 is written. -/
def writeCfg (n : Nat) (v : Word) (c : CfgRegs) : CfgRegs :=
  match n with
  | 0 => { c with width := v }
  | 1 => { c with height := v }
  | 2 => { c with fourcc := v }
  | 3 => { c with pfFlags := v }
  | 4 => { c with rgbBitCount := v }
  | 5 => { c with rmask := v }
  | 6 => { c with gmask := v }
  | 7 => { c with bmask := v }
  | 8 => { c with amask := v }
  | _ => c

/-- The readable register of a number, 0 to 11 (10_state.md R14). -/
def readReg (n : Nat) (s : State) : Option Word :=
  match n with
  | 9 => some s.status
  | 10 => some s.errInfo0
  | 11 => some s.errInfo1
  | _ => readCfg n s.cfg

/-! ### The block (30_encoding.md R62, 41_bc3_block.md R110) -/

/-- BLK.PARSE: the seven latches of a block as one 128-bit little-endian value. -/
def parseBlock (v : BitVec 128) : Latches :=
  { a0 := v.extractLsb' 0 8
    a1 := v.extractLsb' 8 8
    alo := v.extractLsb' 16 16
    ahi := v.extractLsb' 32 32
    c0 := v.extractLsb' 64 16
    c1 := v.extractLsb' 80 16
    cix := v.extractLsb' 96 32 }

/-- The 48-bit alpha index table, `ALO + AHI * 2^16` (30_encoding.md R62). -/
def alphaTable (l : Latches) : BitVec 48 := l.ahi ++ l.alo

/-- A.SEL: the alpha code of texel `t`, in the source's three cases (41_bc3_block.md R112). -/
def alphaCode (l : Latches) (t : Nat) : BitVec 3 :=
  let idx := 3 * t
  if idx ≤ 12 then BitVec.ofNat 3 ((l.alo.toNat >>> idx) &&& 0x7)
  else if straddle t then BitVec.ofNat 3 ((l.alo.toNat >>> 15) ||| ((l.ahi.toNat <<< 1) &&& 0x6))
  else BitVec.ofNat 3 ((l.ahi.toNat >>> (idx - 16)) &&& 0x7)

/-- C.SEL: the colour code of texel `t` (41_bc3_block.md R123). -/
def colourCode (l : Latches) (t : Nat) : BitVec 2 :=
  BitVec.ofNat 2 ((l.cix.toNat >>> (2 * t)) &&& 0x3)

/-! ### Colours (30_encoding.md R68, 41_bc3_block.md R122) -/

/-- C.EXP565: the three fields of an RGB565 word, each widened by bit replication (PRESUMED by the spec, G4, G5; log 17). -/
def exp565 (c : BitVec 16) : Rgb :=
  let r5 := (c.extractLsb' 11 5).toNat
  let g6 := (c.extractLsb' 5 6).toNat
  let b5 := (c.extractLsb' 0 5).toNat
  { r := BitVec.ofNat 8 ((r5 <<< 3) ||| (r5 >>> 2))
    g := BitVec.ofNat 8 ((g6 <<< 2) ||| (g6 >>> 4))
    b := BitVec.ofNat 8 ((b5 <<< 3) ||| (b5 >>> 2)) }

/-- The truncated mean of two channels with weights that sum to 3 (41_bc3_block.md R126, R127). -/
def mixChannel (w0 w1 : Nat) (e0 e1 : Byte) : Byte :=
  BitVec.ofNat 8 ((w0 * e0.toNat + w1 * e1.toNat) / 3)

/-- The weighted mean of two colours, each channel on its own (41_bc3_block.md R126, R127). -/
def mixRgb (w0 w1 : Nat) (e0 e1 : Rgb) : Rgb :=
  { r := mixChannel w0 w1 e0.r e1.r, g := mixChannel w0 w1 e0.g e1.g, b := mixChannel w0 w1 e0.b e1.b }

/-- ColourOf: the colour a code maps to (41_bc3_block.md R129, R124 to R127). -/
def colourOf (c0 c1 : BitVec 16) (cc : BitVec 2) : Rgb :=
  match cc.toNat with
  | 0 => exp565 c0
  | 1 => exp565 c1
  | 2 => mixRgb 2 1 (exp565 c0) (exp565 c1)
  | _ => mixRgb 1 2 (exp565 c0) (exp565 c1)

/-! ### Alpha (41_bc3_block.md R117, R118, R121) -/

/-- A7.LERP for a code from 2 to 7 (41_bc3_block.md R117). -/
def lerp7 (code : Nat) (a0 a1 : Byte) : Byte :=
  BitVec.ofNat 8 (((8 - code) * a0.toNat + (code - 1) * a1.toNat) / 7)

/-- A5.LERP for a code from 2 to 5 (41_bc3_block.md R118). -/
def lerp5 (code : Nat) (a0 a1 : Byte) : Byte :=
  BitVec.ofNat 8 (((6 - code) * a0.toNat + (code - 1) * a1.toNat) / 5)

/-- AlphaOf: the alpha a code maps to, the tests in the source's order (41_bc3_block.md R121). -/
def alphaOf (a0 a1 : Byte) (code : BitVec 3) : Byte :=
  if code.toNat = 0 then a0
  else if code.toNat = 1 then a1
  else if mode7 a0 a1 then lerp7 code.toNat a0 a1
  else if code.toNat = 6 then 0#8
  else if code.toNat = 7 then 255#8
  else lerp5 code.toNat a0 a1

/-- BC3.TEXEL: colour and alpha of texel `t`, combined unchanged (41_bc3_block.md R129). -/
def texelOf (l : Latches) (t : Nat) : Pixel :=
  let rgb := colourOf l.c0 l.c1 (colourCode l t)
  { r := rgb.r, g := rgb.g, b := rgb.b, a := alphaOf l.a0 l.a1 (alphaCode l t) }

/-- BC3.BLOCK: the sixteen texels of a parsed block, row by row (41_bc3_block.md R130, R111). -/
def tileOf (l : Latches) : List Pixel := (List.range 16).map (texelOf l)

/-! ### Pixels -/

/-- Format X: `R + G*2^8 + B*2^16 + A*2^24` (30_encoding.md R80). -/
def pixelWord (p : Pixel) : Word := p.a ++ p.b ++ p.g ++ p.r

/-- The pixel of a format X word. -/
def pixelOfWord (w : Word) : Pixel :=
  ⟨w.extractLsb' 0 8, w.extractLsb' 8 8, w.extractLsb' 16 8, w.extractLsb' 24 8⟩

/-- `ctz32`: the index of the lowest set bit of a mask (00_scope.md R7); 32 for the zero mask, which no rule asks for. -/
def ctz32 (m : Word) : Nat := ((List.range 32).find? (fun k => m.getLsbD k)).getD 32

/-- UNP.CHAN: mask, shift, keep the low 8 bits; a zero mask gives 0 (43_unpacker.md R166, R167). -/
def channelOf (d : BitVec 64) (m : Word) : Byte :=
  if m = 0#32 then 0#8
  else BitVec.ofNat 8 ((d.toNat &&& m.toNat) >>> ctz32 m)

/-- The four channels of a packed pixel (43_unpacker.md R168). -/
def unpackPixel (c : CfgRegs) (d : BitVec 64) : Pixel :=
  ⟨channelOf d c.rmask, channelOf d c.gmask, channelOf d c.bmask, channelOf d c.amask⟩

/-! ### Sizes and addresses, in natural numbers (00_scope.md R6 SIZE_ARITH, 42_bc3_image.md R151) -/

/-- `ceil_div(a, b)` for `b > 0` (00_scope.md R7). -/
def ceilDiv (a b : Nat) : Nat := (a + b - 1) / b

/-- `blockCountX` of a width, `blockCountY` of a height (42_bc3_image.md R140). -/
def blockCount (n : Nat) : Nat := ceilDiv n Config.tile

/-- The bytes BC3 data of a `w` by `h` image needs (42_bc3_image.md R141). -/
def bc3Need (w h : Nat) : Nat := blockCount w * blockCount h * Config.blockBytes

/-- The offset in SRC of block `(bx, by)` (42_bc3_image.md R142). -/
def blockOffset (bcx : Nat) (c : Cursor) : Nat := (c.blockY * bcx + c.blockX) * Config.blockBytes

/-- Bytes of one pixel of the RAW path (43_unpacker.md R162). -/
def rawStride (bits : Nat) : Nat := bits / 8

/-- Bytes of one row of the RAW path (43_unpacker.md R162). -/
def rawPitch (w bits : Nat) : Nat := ceilDiv (w * bits) 8

/-- The offset in SRC of pixel `(x, y)` of the RAW path (43_unpacker.md R164). -/
def rawOffset (w bits x y : Nat) : Nat := y * rawPitch w bits + x * rawStride bits

/-- The pixel number of image coordinate `(x, y)` (20_memory.md R45). -/
def pixelNumber (w x y : Nat) : Nat := y * w + x

/-! ### The tag (40_dispatch.md R90) -/

/-- KIND.DECODE: KindOf. -/
def kindOf (f : Word) : Kind :=
  if f = Config.tagNone then .none
  else if f = Config.tagDxt1 then .bc1
  else if f = Config.tagDxt5 then .bc3
  else .unsupported f

end Sys2Proof.Machine
end

