-- ==== Sys2Proof/Machine/Ops.lean ====
section
/-! DEFINITION. The named operations over memories, registers and status that the meanings share: memory access, free
values, responses, raising an error and releasing it, the BC3 image loop, the RAW checks and the paths of DECODE. -/

namespace Sys2Proof.Machine

/-! ### Memory -/

/-- What an address that is not listed reads as: no known value (10_state.md R26, F1; log 7). -/
def Memory.unlisted : Option Byte := none

/-- The byte at an address. -/
def Memory.read : Memory → Nat → Option Byte
  | [], _ => Memory.unlisted
  | (k, b) :: m, a => if a = k then some b else Memory.read m a

/-- One byte written, the list kept in rising order. -/
def Memory.write : Memory → Nat → Byte → Memory
  | [], a, b => [(a, b)]
  | (k, c) :: m, a, b =>
    if a < k then (a, b) :: (k, c) :: m
    else if a = k then (a, b) :: m
    else (k, c) :: Memory.write m a b

/-- The canonical form: addresses strictly rising. Every entry is a byte and an unlisted address reads as none, so no
entry equals what an unlisted address reads as. -/
abbrev Memory.wf (m : Memory) : Prop := (m.map Prod.fst).Pairwise (· < ·)

/-- A memory with every byte at an unknown value: "any value in every byte" (60_exceptions.md R196; log 7). -/
def Memory.anyValue : Memory := []

/-- The bytes of a list at rising addresses from `a`. -/
def Memory.ofBytes : Nat → List Byte → Memory
  | _, [] => []
  | a, b :: bs => (a, b) :: Memory.ofBytes (a + 1) bs

/-- The `n` bytes from address `off`, where all are listed. -/
def readBytes (m : Memory) : Nat → Nat → Except Fault (List Byte)
  | _, 0 => .ok []
  | off, n + 1 =>
    match Memory.read m off with
    | none => .error (.srcUnlisted off)
    | some b =>
      match readBytes m (off + 1) n with
      | .error f => .error f
      | .ok bs => .ok (b :: bs)

/-- MemRead(SRC, off, n), defined only when `off + n ≤ SRC_LEN` (20_memory.md R42; log 16). -/
def memReadSrc (src : Memory) (srcLen off n : Nat) : Except Fault (List Byte) :=
  if off + n ≤ srcLen then readBytes src off n else .error (.srcOutOfRange off n)

/-- A pixel number beyond the capacity. -/
def beyondCap (cap : Option Nat) (n : Nat) : Bool :=
  match cap with
  | none => false
  | some c => c < n

/-- The four bytes of pixel number `p`: R, G, B, A at `4p .. 4p+3` (20_memory.md R44). -/
def writePixel (m : Memory) (p : Nat) (px : Pixel) : Memory :=
  let a := Config.pixelBytes * p
  Memory.write (Memory.write (Memory.write (Memory.write m a px.r) (a + 1) px.g) (a + 2) px.b) (a + 3) px.a

/-- MemWrite(DST, p, pixel) (20_memory.md R44); pixel numbers from DST_CAP on do not exist (R40; log 16). -/
def memWriteDst (cap : Option Nat) (m : Memory) (p : Nat) (px : Pixel) : Except Fault Memory :=
  if beyondCap cap (p + 1) then .error (.dstOutOfRange p) else .ok (writePixel m p px)

/-! ### Free values (93_implementation_defined.md section 1; log 8) -/

/-- The free word drawn now for a numbered purpose. -/
def freeNow (s : State) (slot : Nat) : Word := Config.freeWord s.freeTick slot

/-- Free latches (F4). -/
def freeLatches (s : State) : Latches :=
  { a0 := (freeNow s 3).setWidth 8, a1 := (freeNow s 4).setWidth 8, alo := (freeNow s 5).setWidth 16,
    ahi := freeNow s 6, c0 := (freeNow s 7).setWidth 16, c1 := (freeNow s 8).setWidth 16, cix := freeNow s 9 }

/-- A free cursor (F4). -/
def freeCursor (s : State) : Cursor :=
  ⟨(freeNow s 10).toNat, (freeNow s 11).toNat, (freeNow s 12).toNat, (freeNow s 13).toNat⟩

/-- A byte of DST as a lookup sees it: its value where it is known, a free byte (F1) elsewhere. -/
def dstByte (s : State) (a : Nat) : Byte :=
  (Memory.read s.dst a).getD ((freeNow s (14 + a)).setWidth 8)

/-- MemRead(DST, p) (20_memory.md R44). -/
def dstPixel (s : State) (p : Nat) : Pixel :=
  let a := Config.pixelBytes * p
  ⟨dstByte s a, dstByte s (a + 1), dstByte s (a + 2), dstByte s (a + 3)⟩

/-! ### Responses (30_encoding.md R85) -/

/-- The response word of format Q. -/
def Response.word (r : Response) : BitVec 33 := BitVec.ofBool r.ok ++ r.val

/-- A command answered with a defined value. -/
def respond (ok : Bool) (val : Word) (s : State) : State :=
  { s with response := some ⟨ok, val⟩ }

/-- A command answered with `val` any value (F2) and the given `ok`. -/
def respondAny (ok : Bool) (s : State) : State :=
  { s with response := some ⟨ok, freeNow s 0⟩, freeTick := s.freeTick + 1 }

/-- A protocol violation: PROTO set, `ok` = 0, `val` any value, nothing else (60_exceptions.md R199). -/
def protocolViolation (s : State) : State :=
  respondAny false { s with status := setProto s.status }

/-! ### Errors: entry and return (60_exceptions.md R196, R197, R201) -/

/-- `raise E(info0, info1)` and `refuse Q`: STATE, SURF and ERR written, the info registers written for an
UnsupportedFormatError and any value otherwise, DST any value, and the response `ok` = 0, `val` = STATUS. -/
def raise (c : Cause) (info0 info1 : Word) (s : State) : State :=
  let status := setOutcome stError surfNone (causeCode c) s.status
  let unsupported := c == .unsupportedFormatError
  { s with
    status := status
    errInfo0 := if unsupported then info0 else freeNow s 1
    errInfo1 := if unsupported then info1 else freeNow s 2
    dst := Memory.anyValue
    response := some ⟨false, status⟩
    freeTick := s.freeTick + 1 }

/-- A refusal carries no info (60_exceptions.md R197); nor does an error other than UnsupportedFormatError. -/
def raisePlain (c : Cause) (s : State) : State := raise c 0#32 0#32 s

/-- RELEASE out of READY or ERROR: STATE IDLE, SURF none, ERR 0, DST and the info registers any value
(44_surface.md R183). -/
def releaseSurface (s : State) : State :=
  { s with
    status := setOutcome stIdle surfNone 0#4 s.status
    errInfo0 := freeNow s 1
    errInfo1 := freeNow s 2
    dst := Memory.anyValue
    response := some ⟨true, 0#32⟩
    freeTick := s.freeTick + 1 }

/-- A DECODE that succeeds: STATE READY, SURF as given, ERR 0, the info registers any value, and the response `ok` = 1,
`val` = STATUS (40_dispatch.md R94, R95, R96). KIND.NONE and KIND.BC3 on their own write that response too (DESIGN CHOICE,
log 12). -/
def becomeReady (surf : BitVec 2) (s : State) : State :=
  let status := setOutcome stReady surf 0#4 s.status
  { s with
    status := status
    errInfo0 := freeNow s 1
    errInfo1 := freeNow s 2
    response := some ⟨true, status⟩
    freeTick := s.freeTick + 1 }

/-- RESET: every register 0, SRC empty, DST any value, latches and cursor unspecified (70_reset_and_hazards.md R220,
10_state.md R29). The capacities are parameters and stay; so do the model's own fields (log 20). -/
def resetUnit (s : State) : State :=
  { s with
    cfg := CfgRegs.zero
    status := 0#32
    errInfo0 := 0#32
    errInfo1 := 0#32
    src := []
    srcLen := 0
    dst := Memory.anyValue
    latches := freeLatches s
    cursor := freeCursor s
    response := some ⟨true, 0#32⟩
    freeTick := s.freeTick + 1 }

/-! ### BC3: the image (42_bc3_image.md) -/

/-- TEXEL.PUT: the pixel stored where the coordinate is inside the image, dropped elsewhere (42_bc3_image.md R145). -/
def putTexel (cap : Option Nat) (w h x y : Nat) (px : Pixel) (m : Memory) : Except Fault Memory :=
  if inside w h x y then memWriteDst cap m (pixelNumber w x y) px else .ok m

/-- One texel of the loop: the cursor set to `(i, j) = (t mod 4, t div 4)` (41_bc3_block.md R111), the texel put at
`(4bx + i, 4by + j)` (42_bc3_image.md R144, R146). -/
def imageTexel (cap : Option Nat) (w h : Nat) (k : Work) (t : Nat) : Except Fault Work :=
  let c : Cursor := { k.cursor with texelI := t % 4, texelJ := t / 4 }
  match putTexel cap w h (4 * c.blockX + c.texelI) (4 * c.blockY + c.texelJ)
      (texelOf k.latches (4 * c.texelJ + c.texelI)) k.dst with
  | .error f => .error f
  | .ok m => .ok { k with cursor := c, dst := m }

/-- The texels of one block, row by row (42_bc3_image.md R146). -/
def imageTexels (cap : Option Nat) (w h : Nat) : List Nat → Work → Except Fault Work
  | [], k => .ok k
  | t :: ts, k =>
    match imageTexel cap w h k t with
    | .error f => .error f
    | .ok k' => imageTexels cap w h ts k'

/-- One block of the loop: the cursor set, the 16 bytes fetched and parsed, the sixteen texels put
(42_bc3_image.md R146). -/
def imageBlock (s : State) (w h : Nat) (k : Work) (bx byy : Nat) : Except Fault Work :=
  let c : Cursor := ⟨bx, byy, 0, 0⟩
  match memReadSrc s.src s.srcLen (blockOffset (blockCount w) c) Config.blockBytes with
  | .error f => .error f
  | .ok bytes =>
    imageTexels s.dstCap w h (List.range 16)
      { k with cursor := c, latches := parseBlock (BitVec.ofNat 128 (leNat bytes)) }

/-- The blocks in the given order (42_bc3_image.md R149: any order gives the same result). -/
def imageBlocks (s : State) (w h : Nat) : List (Nat × Nat) → Work → Except Fault Work
  | [], k => .ok k
  | (bx, byy) :: bs, k =>
    match imageBlock s w h k bx byy with
    | .error f => .error f
    | .ok k' => imageBlocks s w h bs k'

/-- The coordinates of a grid, row-major (42_bc3_image.md R142). -/
def rowMajor (nx ny : Nat) : List (Nat × Nat) :=
  (List.range ny).flatMap fun y => (List.range nx).map fun x => (x, y)

/-- The two checks BC3.IMAGE makes, in order: length, then capacity (42_bc3_image.md R141, R143). -/
def imageCheck (w h : Nat) (s : State) : Option Cause :=
  if s.srcLen < bc3Need w h then some .decodeError
  else if beyondCap s.dstCap (w * h) then some .refDstCap
  else none

/-- The loop of BC3.IMAGE over an image of `w` by `h` pixels (42_bc3_image.md R146). Latches and cursor are scratch and
are left at any value (10_state.md R10, R20, F4; log 10). -/
def imageRun (w h : Nat) (s : State) : Except Fault State :=
  match imageBlocks s w h (rowMajor (blockCount w) (blockCount h)) ⟨s.latches, ⟨0, 0, 0, 0⟩, s.dst⟩ with
  | .error f => .error f
  | .ok k =>
    .ok { s with dst := k.dst, latches := freeLatches s, cursor := freeCursor s, freeTick := s.freeTick + 1 }

/-! ### RAW: the checks and one pixel (43_unpacker.md) -/

/-- UNP.CHECK: flags, bit count, length, in that order (43_unpacker.md R165). -/
def rawCheck (w h flags bits : Word) (srcLen : Nat) : Option Cause :=
  if flags &&& Config.requiredFlags ≠ Config.requiredFlags then some .unsupportedFormatError
  else if !Config.bitCounts.contains bits.toNat then some .unsupportedFormatError
  else if srcLen < rawPitch w.toNat bits.toNat * h.toNat then some .ioError
  else none

/-- UNP.FETCH: the packed pixel at `(x, y)`, zero-extended to 64 bits (43_unpacker.md R164). -/
def fetchPixel (s : State) (bits x y : Nat) : Except Fault (BitVec 64) :=
  match memReadSrc s.src s.srcLen (rawOffset s.cfg.width.toNat bits x y) (rawStride bits) with
  | .error f => .error f
  | .ok bytes => .ok (BitVec.ofNat 64 (leNat bytes))

/-- UNP.PIXEL: the pixel at `(x, y)` (43_unpacker.md R168). -/
def rawPixel (s : State) (x y : Nat) : Except Fault Pixel :=
  match fetchPixel s s.cfg.rgbBitCount.toNat x y with
  | .error f => .error f
  | .ok d => .ok (unpackPixel s.cfg d)

/-! ### The four paths of DECODE (40_dispatch.md R92 to R95) -/

/-- The RAW path (40_dispatch.md R94). -/
def rawPath (s : State) : State :=
  match rawCheck s.cfg.width s.cfg.height s.cfg.pfFlags s.cfg.rgbBitCount s.srcLen with
  | some c => raise c s.cfg.pfFlags s.cfg.rgbBitCount s
  | none => becomeReady surfLazy s

/-- The BC3 path (40_dispatch.md R95). -/
def bc3Path (s : State) : Host.Outcome State Fault Refusal :=
  match imageCheck s.cfg.width.toNat s.cfg.height.toNat s with
  | some c => .next (raisePlain c s)
  | none =>
    match imageRun s.cfg.width.toNat s.cfg.height.toNat s with
    | .error f => .fault f
    | .ok s' => .next (becomeReady surfMaterialised s')

/-- The dispatch on the kind (40_dispatch.md R96). -/
def dispatchKind (k : Kind) (s : State) : Host.Outcome State Fault Refusal :=
  match k with
  | .none => .next (rawPath s)
  | .bc1 => .next (raisePlain .refBc1External s)
  | .bc3 => bc3Path s
  | .unsupported f => .next (raise .unsupportedFormatError f 0#32 s)

/-! ### Results of datapath operations presented on their own (log 11) -/

/-- The results replaced. -/
def setResults (r : Results) (s : State) : State := { s with results := r }

def setKind (k : Kind) (s : State) : State := setResults { s.results with kind := k } s
def setAcode (v : BitVec 3) (s : State) : State := setResults { s.results with acode := v } s
def setCcode (v : BitVec 2) (s : State) : State := setResults { s.results with ccode := v } s
def setAlpha (v : Byte) (s : State) : State := setResults { s.results with alpha := v } s
def setRgb (v : Rgb) (s : State) : State := setResults { s.results with rgb := v } s
def setPixel (v : Pixel) (s : State) : State := setResults { s.results with pixel := v } s
def setTile (v : List Pixel) (s : State) : State := setResults { s.results with tile := v } s
def setD (v : BitVec 64) (s : State) : State := setResults { s.results with d := v } s
def setChan (v : Byte) (s : State) : State := setResults { s.results with chan := v } s
def setLatches (l : Latches) (s : State) : State := { s with latches := l }
def setDst (m : Memory) (s : State) : State := { s with dst := m }

/-- An operation that can fault, its result put where `put` says. -/
def finish {α : Type} (r : Except Fault α) (put : α → State → State) (s : State) : Host.Outcome State Fault Refusal :=
  match r with
  | .error f => .fault f
  | .ok v => .next (put v s)

end Sys2Proof.Machine
end

