-- ==== Sys2Proof/Machine/Alpha.lean ====
section
/-! DEFINITION. The meanings of the alpha operations, format A3, and of A.SEL (30_encoding.md R70; 41_bc3_block.md R112,
R114 to R120). Each reads the latches A0 and A1; the selector's MODE7 bit is taken as presented (log 14). -/

namespace Sys2Proof.Machine

/-- A.SEL t (41_bc3_block.md R112). -/
def execASel (t : BitVec 4) (s : State) : Host.Outcome State Fault Refusal :=
  .next (setAcode (alphaCode s.latches t.toNat) s)

/-- A.END0 (41_bc3_block.md R114). -/
def execAEnd0 (s : State) : Host.Outcome State Fault Refusal :=
  .next (setAlpha s.latches.a0 s)

/-- A.END1 (41_bc3_block.md R116). -/
def execAEnd1 (s : State) : Host.Outcome State Fault Refusal :=
  .next (setAlpha s.latches.a1 s)

/-- A7.LERP, code 2: `(6*A0 + 1*A1) div 7` (41_bc3_block.md R117). -/
def execA7Lerp2 (s : State) : Host.Outcome State Fault Refusal :=
  .next (setAlpha (lerp7 2 s.latches.a0 s.latches.a1) s)

/-- A7.LERP, code 3: `(5*A0 + 2*A1) div 7` (41_bc3_block.md R117). -/
def execA7Lerp3 (s : State) : Host.Outcome State Fault Refusal :=
  .next (setAlpha (lerp7 3 s.latches.a0 s.latches.a1) s)

/-- A7.LERP, code 4: `(4*A0 + 3*A1) div 7` (41_bc3_block.md R117). -/
def execA7Lerp4 (s : State) : Host.Outcome State Fault Refusal :=
  .next (setAlpha (lerp7 4 s.latches.a0 s.latches.a1) s)

/-- A7.LERP, code 5: `(3*A0 + 4*A1) div 7` (41_bc3_block.md R117). -/
def execA7Lerp5 (s : State) : Host.Outcome State Fault Refusal :=
  .next (setAlpha (lerp7 5 s.latches.a0 s.latches.a1) s)

/-- A7.LERP, code 6: `(2*A0 + 5*A1) div 7` (41_bc3_block.md R117). -/
def execA7Lerp6 (s : State) : Host.Outcome State Fault Refusal :=
  .next (setAlpha (lerp7 6 s.latches.a0 s.latches.a1) s)

/-- A7.LERP, code 7: `(1*A0 + 6*A1) div 7` (41_bc3_block.md R117). -/
def execA7Lerp7 (s : State) : Host.Outcome State Fault Refusal :=
  .next (setAlpha (lerp7 7 s.latches.a0 s.latches.a1) s)

/-- A5.LERP, code 2: `(4*A0 + 1*A1) div 5` (41_bc3_block.md R118). -/
def execA5Lerp2 (s : State) : Host.Outcome State Fault Refusal :=
  .next (setAlpha (lerp5 2 s.latches.a0 s.latches.a1) s)

/-- A5.LERP, code 3: `(3*A0 + 2*A1) div 5` (41_bc3_block.md R118). -/
def execA5Lerp3 (s : State) : Host.Outcome State Fault Refusal :=
  .next (setAlpha (lerp5 3 s.latches.a0 s.latches.a1) s)

/-- A5.LERP, code 4: `(2*A0 + 3*A1) div 5` (41_bc3_block.md R118). -/
def execA5Lerp4 (s : State) : Host.Outcome State Fault Refusal :=
  .next (setAlpha (lerp5 4 s.latches.a0 s.latches.a1) s)

/-- A5.LERP, code 5: `(1*A0 + 4*A1) div 5` (41_bc3_block.md R118). -/
def execA5Lerp5 (s : State) : Host.Outcome State Fault Refusal :=
  .next (setAlpha (lerp5 5 s.latches.a0 s.latches.a1) s)

/-- A5.ZERO (41_bc3_block.md R119). -/
def execA5Zero (s : State) : Host.Outcome State Fault Refusal :=
  .next (setAlpha 0#8 s)

/-- A5.MAX (41_bc3_block.md R120). -/
def execA5Max (s : State) : Host.Outcome State Fault Refusal :=
  .next (setAlpha 255#8 s)

end Sys2Proof.Machine
end

