-- ==== Sys2Proof/Machine/Block.lean ====
section
/-! DEFINITION. The meanings of the block and image operations: BLK.PARSE, BC3.TEXEL, BC3.BLOCK, TEXEL.PUT, BC3.IMAGE
(41_bc3_block.md R110, R129, R130; 42_bc3_image.md R145, R146). -/

namespace Sys2Proof.Machine

/-- BLK.PARSE: the seven latches loaded from a block (41_bc3_block.md R110). -/
def execBlkParse (v : BitVec 128) (s : State) : Host.Outcome State Fault Refusal :=
  .next (setLatches (parseBlock v) s)

/-- BC3.TEXEL t of the parsed block (41_bc3_block.md R129). -/
def execBc3Texel (t : BitVec 4) (s : State) : Host.Outcome State Fault Refusal :=
  .next (setPixel (texelOf s.latches t.toNat) s)

/-- BC3.BLOCK: the block parsed and all its texels computed (41_bc3_block.md R130). -/
def execBc3Block (v : BitVec 128) (s : State) : Host.Outcome State Fault Refusal :=
  .next (setTile (tileOf (parseBlock v)) (setLatches (parseBlock v) s))

/-- TEXEL.PUT x, y, p: a format X pixel put at `(x, y)` of the configured image (42_bc3_image.md R145). -/
def execTexelPut (x y p : Word) (s : State) : Host.Outcome State Fault Refusal :=
  finish (putTexel s.dstCap s.cfg.width.toNat s.cfg.height.toNat x.toNat y.toNat (pixelOfWord p) s.dst) setDst s

/-- BC3.IMAGE over an image of `w` by `h` pixels (42_bc3_image.md R146). -/
def execBc3Image (w h : Word) (s : State) : Host.Outcome State Fault Refusal :=
  match imageCheck w.toNat h.toNat s with
  | some c => .next (raisePlain c s)
  | none => finish (imageRun w.toNat h.toNat s) (fun s' _ => s') s

end Sys2Proof.Machine
end

