-- ==== Sys2Proof/Machine/Colour.lean ====
section
/-! DEFINITION. The meanings of the colour operations, format C2, of C.SEL and of C.EXP565 (30_encoding.md R71;
41_bc3_block.md R122 to R127). The format C2 operations read the latches C0 and C1. -/

namespace Sys2Proof.Machine

/-- C.SEL t (41_bc3_block.md R123). -/
def execCSel (t : BitVec 4) (s : State) : Host.Outcome State Fault Refusal :=
  .next (setCcode (colourCode s.latches t.toNat) s)

/-- C.EXP565 c (41_bc3_block.md R122). -/
def execCExp565 (c : BitVec 16) (s : State) : Host.Outcome State Fault Refusal :=
  .next (setRgb (exp565 c) s)

/-- C.END0 (41_bc3_block.md R124). -/
def execCEnd0 (s : State) : Host.Outcome State Fault Refusal :=
  .next (setRgb (exp565 s.latches.c0) s)

/-- C.END1 (41_bc3_block.md R125). -/
def execCEnd1 (s : State) : Host.Outcome State Fault Refusal :=
  .next (setRgb (exp565 s.latches.c1) s)

/-- C.MIX21 (41_bc3_block.md R126). -/
def execCMix21 (s : State) : Host.Outcome State Fault Refusal :=
  .next (setRgb (mixRgb 2 1 (exp565 s.latches.c0) (exp565 s.latches.c1)) s)

/-- C.MIX12 (41_bc3_block.md R127). -/
def execCMix12 (s : State) : Host.Outcome State Fault Refusal :=
  .next (setRgb (mixRgb 1 2 (exp565 s.latches.c0) (exp565 s.latches.c1)) s)

end Sys2Proof.Machine
end

