-- ==== Sys2Proof/Machine/Command.lean ====
section
/-! DEFINITION. The meanings of the host commands, format H (30_encoding.md R84; 40_dispatch.md; 44_surface.md;
70_reset_and_hazards.md R220; 60_exceptions.md R199). -/

namespace Sys2Proof.Machine

/-- RESET (70_reset_and_hazards.md R220): accepted in every state. -/
def execReset (s : State) : Host.Outcome State Fault Refusal :=
  .next (resetUnit s)

/-- WRCFG a0, a1 (40_dispatch.md R100). -/
def execWrcfg (a0 a1 : Word) (s : State) : Host.Outcome State Fault Refusal :=
  if !isIdle s || 8 < a0.toNat then .next (protocolViolation s)
  else .next (respond true 0#32 { s with cfg := writeCfg a0.toNat a1 s.cfg })

/-- RDREG a0 (40_dispatch.md R101): accepted in every state; ERRINFO0 and ERRINFO1 read as any value where their content
is not defined (10_state.md R23; log 9). -/
def execRdreg (a0 : Word) (s : State) : Host.Outcome State Fault Refusal :=
  if (a0.toNat == 10 || a0.toNat == 11) && !errInfoDefined s then .next (respondAny true s)
  else
    match readReg a0.toNat s with
    | some v => .next (respond true v s)
    | none => .next (protocolViolation s)

/-- LOADSRC n, bytes (40_dispatch.md R102): the whole of SRC replaced. -/
def execLoadsrc (n : Word) (payload : List Byte) (s : State) : Host.Outcome State Fault Refusal :=
  if !isIdle s || beyondCap s.srcCap n.toNat then .next (protocolViolation s)
  else .next (respond true 0#32 { s with src := Memory.ofBytes 0 payload, srcLen := n.toNat })

/-- DECODE (40_dispatch.md R96): accepted in IDLE; zero dimensions refused first (R91), then the path of the kind. -/
def execDecode (s : State) : Host.Outcome State Fault Refusal :=
  if !isIdle s then .next (protocolViolation s)
  else if s.cfg.width = 0#32 ∨ s.cfg.height = 0#32 then .next (raisePlain .refZeroDim s)
  else dispatchKind (kindOf s.cfg.fourcc) s

/-- AT x, y (44_surface.md R181): out of bounds it is not served and changes nothing. -/
def execAt (x y : Word) (s : State) : Host.Outcome State Fault Refusal :=
  if !isReady s then .next (protocolViolation s)
  else if !inside s.cfg.width.toNat s.cfg.height.toNat x.toNat y.toNat then .next (respondAny false s)
  else if isMaterialised s then
    .next (respond true (pixelWord (dstPixel s (pixelNumber s.cfg.width.toNat x.toNat y.toNat))) s)
  else finish (rawPixel s x.toNat y.toNat) (fun px => respond true (pixelWord px)) s

/-- RDDST k (44_surface.md R182). -/
def execRddst (k : Word) (s : State) : Host.Outcome State Fault Refusal :=
  if !isReady s || !isMaterialised s then .next (protocolViolation s)
  else if Config.pixelBytes * (s.cfg.width.toNat * s.cfg.height.toNat) ≤ k.toNat then .next (respondAny false s)
  else .next (respond true ((dstByte s k.toNat).setWidth 32) s)

/-- RELEASE (44_surface.md R183). -/
def execRelease (s : State) : Host.Outcome State Fault Refusal :=
  if isIdle s then .next (protocolViolation s) else .next (releaseSurface s)

/-- RESERVED.CMD: the command codes 8 to 15 (60_exceptions.md R199). -/
def execReservedCmd (s : State) : Host.Outcome State Fault Refusal :=
  .next (protocolViolation s)

end Sys2Proof.Machine
end

