-- ==== Sys2Proof/Machine/Kind.lean ====
section
/-! DEFINITION. The meanings of the tag rows, format T, which are the four paths DECODE can take after its first checks,
and of KIND.DECODE (40_dispatch.md R90, R92 to R95; log 15). -/

namespace Sys2Proof.Machine

/-- KIND.NONE: the RAW path (40_dispatch.md R94), DECODE's response on it included (DESIGN CHOICE, log 12). -/
def execKindNone (s : State) : Host.Outcome State Fault Refusal :=
  .next (rawPath s)

/-- KIND.BC1: refused, the decoder is an external unit (40_dispatch.md R93). -/
def execKindBc1 (s : State) : Host.Outcome State Fault Refusal :=
  .next (raisePlain .refBc1External s)

/-- KIND.BC3: the BC3 path (40_dispatch.md R95), DECODE's response on it included (DESIGN CHOICE, log 12). -/
def execKindBc3 (s : State) : Host.Outcome State Fault Refusal :=
  bc3Path s

/-- KIND.UNSUPPORTED f: UnsupportedFormatError with the tag (40_dispatch.md R92). -/
def execKindUnsupported (f : Word) (s : State) : Host.Outcome State Fault Refusal :=
  .next (raise .unsupportedFormatError f 0#32 s)

/-- KIND.DECODE f (40_dispatch.md R90). -/
def execKindDecode (f : Word) (s : State) : Host.Outcome State Fault Refusal :=
  .next (setKind (kindOf f) s)

end Sys2Proof.Machine
end

