-- ==== Sys2Proof/Machine/Unpack.lean ====
section
/-! DEFINITION. The meanings of the unpacker's operations: UNP.FETCH, UNP.BADBITS, UNP.CHECK, UNP.CHAN, UNP.PIXEL
(43_unpacker.md R160 to R168). -/

namespace Sys2Proof.Machine

/-- UNP.FETCH, 8 bits: `d = LE(1, SRC, y*pitch + x*1)` (43_unpacker.md R164). -/
def execUnpFetch8 (x y : Word) (s : State) : Host.Outcome State Fault Refusal :=
  finish (fetchPixel s 8 x.toNat y.toNat) setD s

/-- UNP.FETCH, 16 bits: `d = LE(2, SRC, y*pitch + x*2)` (43_unpacker.md R164). -/
def execUnpFetch16 (x y : Word) (s : State) : Host.Outcome State Fault Refusal :=
  finish (fetchPixel s 16 x.toNat y.toNat) setD s

/-- UNP.FETCH, 32 bits: `d = LE(4, SRC, y*pitch + x*4)` (43_unpacker.md R164). -/
def execUnpFetch32 (x y : Word) (s : State) : Host.Outcome State Fault Refusal :=
  finish (fetchPixel s 32 x.toNat y.toNat) setD s

/-- UNP.FETCH, 64 bits: `d = LE(8, SRC, y*pitch + x*8)` (43_unpacker.md R164). -/
def execUnpFetch64 (x y : Word) (s : State) : Host.Outcome State Fault Refusal :=
  finish (fetchPixel s 64 x.toNat y.toNat) setD s

/-- UNP.BADBITS n: UnsupportedFormatError with PF_FLAGS and the bit count (43_unpacker.md R161). -/
def execUnpBadbits (n : Word) (s : State) : Host.Outcome State Fault Refusal :=
  .next (raise .unsupportedFormatError s.cfg.pfFlags n s)

/-- UNP.CHECK over width `w`, height `h`, flags `g` and bit count `n`: nothing written on success (43_unpacker.md R165). -/
def execUnpCheck (w h g n : Word) (s : State) : Host.Outcome State Fault Refusal :=
  match rawCheck w h g n s.srcLen with
  | some c => .next (raise c g n s)
  | none => .next s

/-- UNP.CHAN d, m (43_unpacker.md R166, R167). -/
def execUnpChan (d : BitVec 64) (m : Word) (s : State) : Host.Outcome State Fault Refusal :=
  .next (setChan (channelOf d m) s)

/-- UNP.PIXEL x, y (43_unpacker.md R168). -/
def execUnpPixel (x y : Word) (s : State) : Host.Outcome State Fault Refusal :=
  finish (rawPixel s x.toNat y.toNat) setPixel s

end Sys2Proof.Machine
end

