-- ==== Sys2Proof/Machine/Dispatch.lean ====
section
/-! DEFINITION. One arm per constructor of `Instr`, each a call of that instruction's own meaning. -/

namespace Sys2Proof.Machine

def exec (i : Instr) (s : State) : Host.Outcome State Fault Refusal :=
  match i with
  | .reset => Sys2Proof.Machine.execReset s
  | .wrcfg a0 a1 => Sys2Proof.Machine.execWrcfg a0 a1 s
  | .rdreg a0 => Sys2Proof.Machine.execRdreg a0 s
  | .loadsrc n payload => Sys2Proof.Machine.execLoadsrc n payload s
  | .decode => Sys2Proof.Machine.execDecode s
  | .atXY x y => Sys2Proof.Machine.execAt x y s
  | .rddst k => Sys2Proof.Machine.execRddst k s
  | .release => Sys2Proof.Machine.execRelease s
  | .reservedCmd _ => Sys2Proof.Machine.execReservedCmd s
  | .kindNone => Sys2Proof.Machine.execKindNone s
  | .kindBc1 => Sys2Proof.Machine.execKindBc1 s
  | .kindBc3 => Sys2Proof.Machine.execKindBc3 s
  | .kindUnsupported f => Sys2Proof.Machine.execKindUnsupported f s
  | .bc3Block v => Sys2Proof.Machine.execBc3Block v s
  | .aEnd0 => Sys2Proof.Machine.execAEnd0 s
  | .aEnd1 => Sys2Proof.Machine.execAEnd1 s
  | .a7Lerp2 => Sys2Proof.Machine.execA7Lerp2 s
  | .a7Lerp3 => Sys2Proof.Machine.execA7Lerp3 s
  | .a7Lerp4 => Sys2Proof.Machine.execA7Lerp4 s
  | .a7Lerp5 => Sys2Proof.Machine.execA7Lerp5 s
  | .a7Lerp6 => Sys2Proof.Machine.execA7Lerp6 s
  | .a7Lerp7 => Sys2Proof.Machine.execA7Lerp7 s
  | .a5Lerp2 => Sys2Proof.Machine.execA5Lerp2 s
  | .a5Lerp3 => Sys2Proof.Machine.execA5Lerp3 s
  | .a5Lerp4 => Sys2Proof.Machine.execA5Lerp4 s
  | .a5Lerp5 => Sys2Proof.Machine.execA5Lerp5 s
  | .a5Zero => Sys2Proof.Machine.execA5Zero s
  | .a5Max => Sys2Proof.Machine.execA5Max s
  | .cEnd0 => Sys2Proof.Machine.execCEnd0 s
  | .cEnd1 => Sys2Proof.Machine.execCEnd1 s
  | .cMix21 => Sys2Proof.Machine.execCMix21 s
  | .cMix12 => Sys2Proof.Machine.execCMix12 s
  | .cExp565 c => Sys2Proof.Machine.execCExp565 c s
  | .unpFetch8 x y => Sys2Proof.Machine.execUnpFetch8 x y s
  | .unpFetch16 x y => Sys2Proof.Machine.execUnpFetch16 x y s
  | .unpFetch32 x y => Sys2Proof.Machine.execUnpFetch32 x y s
  | .unpFetch64 x y => Sys2Proof.Machine.execUnpFetch64 x y s
  | .unpBadbits n => Sys2Proof.Machine.execUnpBadbits n s
  | .kindDecode f => Sys2Proof.Machine.execKindDecode f s
  | .blkParse v => Sys2Proof.Machine.execBlkParse v s
  | .aSel t => Sys2Proof.Machine.execASel t s
  | .cSel t => Sys2Proof.Machine.execCSel t s
  | .bc3Texel t => Sys2Proof.Machine.execBc3Texel t s
  | .texelPut x y p => Sys2Proof.Machine.execTexelPut x y p s
  | .bc3Image w h => Sys2Proof.Machine.execBc3Image w h s
  | .unpCheck w h g n => Sys2Proof.Machine.execUnpCheck w h g n s
  | .unpChan d m => Sys2Proof.Machine.execUnpChan d m s
  | .unpPixel x y => Sys2Proof.Machine.execUnpPixel x y s

end Sys2Proof.Machine
end

