-- ==== Sys2Proof/Machine/Step.lean ====
section
/-! DEFINITION. One step of the unit: the next request is taken, decoded and executed (00_scope.md R4; log 1). -/

namespace Sys2Proof.Machine

/-- The unit serves its next request. With none waiting it waits, and the step changes nothing (10_state.md R29: "the unit
waits in IDLE for host commands"). A request whose bytes are no encoding is refused by name (log 2). -/
def step (s : State) : Host.Outcome State Fault Refusal :=
  match s.pending with
  | [] => .next s
  | r :: rest =>
    match decode r with
    | .error why => .refused (.undecodable why)
    | .ok i => exec i { s with pending := rest }

/-- The state with a word of the opcode table, every bit above it zero, presented as the next request (log 1, log 5). -/
def State.withFetchWord (s : State) (nbits w : Nat) : State :=
  { s with pending := tableRequest nbits w :: s.pending }

end Sys2Proof.Machine
end

