-- ==== Sys2Proof/Safety.lean ====
section
/-! DEFINITION. What counts as a safe state and a safe step, in the terms the claims use. -/

namespace Sys2Proof.Machine

/-- The host commands, format H (30_encoding.md R84): what the host can issue. The other rows are datapath operations
(30_encoding.md R88). -/
def isCommand : Instr → Bool
  | .reset | .wrcfg _ _ | .rdreg _ | .loadsrc _ _ | .decode | .atXY _ _ | .rddst _ | .release | .reservedCmd _ => true
  | .kindNone | .kindBc1 | .kindBc3 | .kindUnsupported _ | .bc3Block _
  | .aEnd0 | .aEnd1 | .a7Lerp2 | .a7Lerp3 | .a7Lerp4 | .a7Lerp5 | .a7Lerp6 | .a7Lerp7
  | .a5Lerp2 | .a5Lerp3 | .a5Lerp4 | .a5Lerp5 | .a5Zero | .a5Max
  | .cEnd0 | .cEnd1 | .cMix21 | .cMix12 | .cExp565 _
  | .unpFetch8 _ _ | .unpFetch16 _ _ | .unpFetch32 _ _ | .unpFetch64 _ _ | .unpBadbits _
  | .kindDecode _ | .blkParse _ | .aSel _ | .cSel _ | .bc3Texel _ | .texelPut _ _ _
  | .bc3Image _ _ | .unpCheck _ _ _ _ | .unpChan _ _ | .unpPixel _ _ => false

/-- STATUS holds one of the values that occur (10_state.md R22, R24, 93_implementation_defined.md U14): STATE is not 3,
SURF is not 3 and is non-zero exactly in READY, ERR is non-zero exactly in ERROR and is one of the codes the unit raises,
bits 31:9 are zero. -/
def StatusLegal (w : Word) : Prop :=
  (statusState w = stIdle ∨ statusState w = stReady ∨ statusState w = stError) ∧
  (statusSurf w = surfNone ∨ statusSurf w = surfMaterialised ∨ statusSurf w = surfLazy) ∧
  (statusSurf w ≠ surfNone ↔ statusState w = stReady) ∧
  (statusErr w ≠ 0#4 ↔ statusState w = stError) ∧
  (statusErr w ∈ [0#4, 1#4, 3#4, 4#4, 8#4, 9#4, 10#4]) ∧
  w.extractLsb' 9 23 = 0#23

/-- SRC is in canonical form, lists exactly the offsets below SRC_LEN, and is within its capacity (10_state.md R25). -/
def SrcLoaded (s : State) : Prop :=
  Memory.wf s.src ∧ (∀ a, (Memory.read s.src a).isSome = true ↔ a < s.srcLen) ∧ beyondCap s.srcCap s.srcLen = false

/-- DST is in canonical form and lists no byte of a pixel past its capacity (10_state.md R26). -/
def DstLegal (s : State) : Prop :=
  Memory.wf s.dst ∧ ∀ a, (Memory.read s.dst a).isSome = true → beyondCap s.dstCap (a / 4 + 1) = false

/-- A materialised surface fits DST and every byte of it has a value (10_state.md R26). -/
def SurfaceStored (s : State) : Prop :=
  isMaterialised s = true →
    beyondCap s.dstCap (s.cfg.width.toNat * s.cfg.height.toNat) = false ∧
    ∀ a, a < 4 * (s.cfg.width.toNat * s.cfg.height.toNat) → (Memory.read s.dst a).isSome = true

/-- A lazy surface still passes the checks DECODE made (20_memory.md R52). -/
def SurfaceChecked (s : State) : Prop :=
  statusSurf s.status = surfLazy →
    rawCheck s.cfg.width s.cfg.height s.cfg.pfFlags s.cfg.rgbBitCount s.srcLen = none

/-- The invariant of the unit. -/
def UnitInv (s : State) : Prop :=
  StatusLegal s.status ∧ SrcLoaded s ∧ DstLegal s ∧ SurfaceStored s ∧ SurfaceChecked s

/-- The situations that are a protocol violation: a command the state machine does not list for the current STATE
(10_state.md R24), a reserved command code, a register number the command cannot use, more bytes than SRC_CAP, an RDDST
on a surface that is not materialised (60_exceptions.md R199). -/
def Violates (s : State) : Instr → Prop
  | .wrcfg a0 _ => isIdle s = false ∨ 8 < a0.toNat
  | .rdreg a0 => 11 < a0.toNat
  | .loadsrc n _ => isIdle s = false ∨ beyondCap s.srcCap n.toNat = true
  | .decode => isIdle s = false
  | .atXY _ _ => isReady s = false
  | .rddst _ => isReady s = false ∨ isMaterialised s = false
  | .release => isIdle s = true
  | .reservedCmd _ => True
  | .reset => False
  | .kindNone | .kindBc1 | .kindBc3 | .kindUnsupported _ | .bc3Block _
  | .aEnd0 | .aEnd1 | .a7Lerp2 | .a7Lerp3 | .a7Lerp4 | .a7Lerp5 | .a7Lerp6 | .a7Lerp7
  | .a5Lerp2 | .a5Lerp3 | .a5Lerp4 | .a5Lerp5 | .a5Zero | .a5Max
  | .cEnd0 | .cEnd1 | .cMix21 | .cMix12 | .cExp565 _
  | .unpFetch8 _ _ | .unpFetch16 _ _ | .unpFetch32 _ _ | .unpFetch64 _ _ | .unpBadbits _
  | .kindDecode _ | .blkParse _ | .aSel _ | .cSel _ | .bc3Texel _ | .texelPut _ _ _
  | .bc3Image _ _ | .unpCheck _ _ _ _ | .unpChan _ _ | .unpPixel _ _ => False

/-- `t` is `s` after a protocol violation: PROTO set, a response with `ok` = 0 and any `val`, nothing else but the tick
of the free values (60_exceptions.md R199). -/
def ViolationFrom (s t : State) : Prop :=
  ∃ v : Word, t = { s with
    status := s.status ||| 0x100#32, response := some ⟨false, v⟩, freeTick := s.freeTick + 1 }

/-- `t` is `s` after `raise` or `refuse` of `c` (60_exceptions.md R196, R197): STATE ERROR, SURF none, ERR the code, no
byte of DST with a known value, the response `ok` = 0 and `val` = STATUS; PROTO, the other registers, SRC and the rest of
the state keep their values. What ERRINFO0 and ERRINFO1 hold depends on the cause and is said apart. -/
def RaisedFrom (c : Cause) (s t : State) : Prop :=
  statusState t.status = stError ∧ statusSurf t.status = surfNone ∧ statusErr t.status = causeCode c ∧
  t.status.extractLsb' 8 24 = s.status.extractLsb' 8 24 ∧
  t.response = some ⟨false, t.status⟩ ∧ (∀ a, Memory.read t.dst a = none) ∧
  t.cfg = s.cfg ∧ t.src = s.src ∧ t.srcLen = s.srcLen ∧ t.latches = s.latches ∧ t.cursor = s.cursor ∧
  t.srcCap = s.srcCap ∧ t.dstCap = s.dstCap ∧ t.results = s.results ∧ t.pending = s.pending

/-- `t` is `s` after a DECODE that made a surface (40_dispatch.md R94, R95, R96), DST, latches and cursor apart: STATE
READY, SURF as given, ERR 0, the response `ok` = 1 and `val` = STATUS; the registers but STATUS, ERRINFO0 and ERRINFO1,
and SRC, keep their values. -/
def ReadyFrom (surf : BitVec 2) (s t : State) : Prop :=
  statusState t.status = stReady ∧ statusSurf t.status = surf ∧ statusErr t.status = 0#4 ∧
  t.status.extractLsb' 8 24 = s.status.extractLsb' 8 24 ∧
  t.response = some ⟨true, t.status⟩ ∧
  t.cfg = s.cfg ∧ t.src = s.src ∧ t.srcLen = s.srcLen ∧
  t.srcCap = s.srcCap ∧ t.dstCap = s.dstCap ∧ t.results = s.results ∧ t.pending = s.pending

/-- The instruction runs the RAW path: KIND.NONE, or a DECODE that gets past its first checks to the tag 0
(40_dispatch.md R94, R96). -/
def RunsRawPath (s : State) (i : Instr) : Prop :=
  i = .kindNone ∨
  (i = .decode ∧ isIdle s = true ∧ s.cfg.width ≠ 0#32 ∧ s.cfg.height ≠ 0#32 ∧ s.cfg.fourcc = 0x00000000#32)

/-- The instruction runs the BC3 path: KIND.BC3, or a DECODE that gets past its first checks to the tag "DXT5"
(40_dispatch.md R95, R96). -/
def RunsBc3Path (s : State) (i : Instr) : Prop :=
  i = .kindBc3 ∨
  (i = .decode ∧ isIdle s = true ∧ s.cfg.width ≠ 0#32 ∧ s.cfg.height ≠ 0#32 ∧ s.cfg.fourcc = 0x35545844#32)

/-- Pixel number `p` of a memory holds `px` in the byte order R, G, B, A (20_memory.md R44). -/
def HoldsPixel (m : Memory) (p : Nat) (px : Pixel) : Prop :=
  Memory.read m (4 * p) = some px.r ∧ Memory.read m (4 * p + 1) = some px.g ∧
  Memory.read m (4 * p + 2) = some px.b ∧ Memory.read m (4 * p + 3) = some px.a

/-- The bytes `bs` stand in SRC from offset `off` on. -/
def SrcHolds (s : State) (off : Nat) (bs : List Byte) : Prop :=
  off + bs.length ≤ s.srcLen ∧ ∀ k (hk : k < bs.length), Memory.read s.src (off + k) = some bs[k]

/-- `m` holds the image of the blocks in SRC, pixel by pixel (42_bc3_image.md R147): for every `(x, y)` inside the image,
pixel `y*w + x` is texel `(x mod 4, y mod 4)` of the block at `((y div 4)*ceil(w/4) + x div 4)*16`. -/
def HoldsImage (s : State) (w h : Nat) (m : Memory) : Prop :=
  ∀ x y, x < w → y < h →
    ∃ bytes : List Byte, bytes.length = 16 ∧
      SrcHolds s (((y / 4) * ((w + 3) / 4) + x / 4) * 16) bytes ∧
      HoldsPixel m (y * w + x)
        (texelOf (parseBlock (BitVec.ofNat 128 (leNat bytes))) (4 * (y % 4) + x % 4))

/-- A step that does not stop with a fault: no read outside SRC, no write outside DST (70_reset_and_hazards.md R227). -/
def StepSafe (s : State) : Prop := ∀ f : Fault, step s ≠ .fault f

end Sys2Proof.Machine
end

