-- ==== Sys2Proof/Certificates/Slice0/Obligations.lean ====
section
/-! DEFINITION. The statements for the provers, each a Prop. The datapath operations are presented on their own through
ports of the model's (log 3) and put what they give in `results` (log 11): in a statement about one of them that place is
the model's, the value is the rule's. The tick of the free values (`freeTick`, log 8) and `response` (log 12) are the
model's own fields too. -/

open Sys2Proof Sys2Proof.Machine

/-! ### The machine: decoding, stepping, encoding -/

/-- The step takes the next request and runs the instruction it decodes to, the request removed; with none waiting the
unit waits (10_state.md R29); bytes that are no encoding are refused (log 1, log 2: the port is the model's own). -/
def Obligations.StepRunsDecodedInstruction : Prop :=
  (∀ (s : State) (r : Request) (rest : List Request) (i : Instr),
    s.pending = r :: rest → decode r = .ok i → step s = exec i { s with pending := rest }) ∧
  (∀ s : State, s.pending = [] → step s = .next s) ∧
  (∀ (s : State) (r : Request) (rest : List Request) (why : Reject),
    s.pending = r :: rest → decode r = .error why → step s = .refused (.undecodable why))

/-- Words written out from 30_encoding.md: command words of 95_test_vectors.md P1 and P3, a tag, selectors, a texel
number, a bit count and an RGB565 word. -/
def Obligations.SampleWordsDecode : Prop :=
  decode ⟨.command, [0x04, 0, 0, 0, 0x01, 0, 0, 0, 0x01]⟩ = .ok (.wrcfg 1#32 4#32) ∧
  decode ⟨.command, [0, 0, 0, 0, 0x3F, 0, 0, 0, 0x06]⟩ = .ok (.rddst 0x3F#32) ∧
  decode ⟨.command, [0x01, 0, 0, 0, 0x02, 0, 0, 0, 0x05]⟩ = .ok (.atXY 2#32 1#32) ∧
  decode ⟨.command, [0, 0, 0, 0, 0x02, 0, 0, 0, 0x03, 0xAA, 0xBB]⟩ = .ok (.loadsrc 2#32 [0xAA, 0xBB]) ∧
  decode ⟨.command, [0, 0, 0, 0, 0, 0, 0, 0, 0x09]⟩ = .ok (.reservedCmd 9#4) ∧
  decode ⟨.tag, [0x44, 0x58, 0x54, 0x35]⟩ = .ok .kindBc3 ∧
  decode ⟨.alphaSelector, [0x0C]⟩ = .ok .a7Lerp4 ∧
  decode ⟨.colourCode, [0x03]⟩ = .ok .cMix12 ∧
  decode ⟨.alphaSel, [0x05]⟩ = .ok (.aSel 5#4) ∧
  decode ⟨.bitCount, [0x10, 0, 0, 0, 0x02, 0, 0, 0, 0x01, 0, 0, 0]⟩ = .ok (.unpFetch16 2#32 1#32) ∧
  decode ⟨.exp565, [0xE0, 0x07]⟩ = .ok (.cExp565 0x07E0#16)

/-- Every well-formed instruction, with every operand, decodes from its encoding. -/
def Obligations.EncodingRoundTrips : Prop :=
  ∀ i : Instr, Instr.wellFormed i = true → decode (encode i) = .ok i

/-- Whatever the bytes, what the decoder answers is well formed. -/
def Obligations.DecodedInstructionIsWellFormed : Prop :=
  ∀ (r : Request) (i : Instr), decode r = .ok i → Instr.wellFormed i = true

/-- No instruction touches the requests that wait or the two capacities (10_state.md R28: parameters; log 1, log 6). -/
def Obligations.InstructionsKeepPortAndCapacities : Prop :=
  ∀ (i : Instr) (s t : State), exec i s = .next t →
    t.pending = s.pending ∧ t.srcCap = s.srcCap ∧ t.dstCap = s.dstCap

/-! ### Invariants and safety -/

/-- Every step keeps the invariant: STATUS legal, SRC loaded, DST legal, the live surface stored or checked. -/
def Obligations.StepKeepsInvariant : Prop :=
  ∀ s t : State, UnitInv s → step s = .next t → UnitInv t

/-- The invariant holds after reset. -/
def Obligations.ResetStateHasInvariant : Prop := UnitInv State.reset

/-- From a state with the invariant every host command ends in a next state: no read outside SRC, no write outside DST,
every DECODE ends (70_reset_and_hazards.md R227). -/
def Obligations.CommandsAlwaysComplete : Prop :=
  ∀ (i : Instr) (s : State), UnitInv s → isCommand i = true → Instr.wellFormed i = true →
    ∃ t, exec i s = .next t ∧ UnitInv t

/-! ### The state machine -/

/-- A protocol violation: PROTO set, `ok` = 0, any `val`, no other change; and PROTO is sticky, whatever instruction runs,
but for RESET. -/
def Obligations.ProtocolViolationChangesOnlyProto : Prop :=
  (∀ (i : Instr) (s : State), Violates s i → ∃ t, exec i s = .next t ∧ ViolationFrom s t) ∧
  (∀ (i : Instr) (s t : State), exec i s = .next t → i ≠ .reset → statusProto s.status = true →
    statusProto t.status = true)

/-- RESERVED.CMD, codes 8 to 15, is a protocol violation in every state: that is its whole effect. -/
def Obligations.ReservedCommandIsViolation : Prop :=
  ∀ (cmd : BitVec 4) (s : State), ∃ t, exec (.reservedCmd cmd) s = .next t ∧ ViolationFrom s t

/-- STATE moves only as the table of R24 says: to IDLE by RESET and RELEASE, from IDLE to READY or ERROR by DECODE, and
not at all by any other command. -/
def Obligations.StateMovesOnlyAsTable : Prop :=
  ∀ (i : Instr) (s t : State), isCommand i = true → exec i s = .next t →
    (i = .reset → statusState t.status = stIdle) ∧
    (i = .release → statusState t.status = stIdle) ∧
    (i = .decode → isIdle s = true → statusState t.status = stReady ∨ statusState t.status = stError) ∧
    (i = .decode → isIdle s = false → statusState t.status = statusState s.status) ∧
    (i ≠ .reset → i ≠ .release → i ≠ .decode → statusState t.status = statusState s.status)

/-- While a surface is live no command but RELEASE and RESET changes a configuration register, SRC, DST, or what is live. -/
def Obligations.LiveSurfaceIsImmutable : Prop :=
  ∀ (i : Instr) (s t : State), isCommand i = true → i ≠ .release → i ≠ .reset → isReady s = true →
    exec i s = .next t →
    t.cfg = s.cfg ∧ t.src = s.src ∧ t.srcLen = s.srcLen ∧ t.dst = s.dst ∧
    statusState t.status = stReady ∧ statusSurf t.status = statusSurf s.status

/-- What RESET leaves, from any state: every register 0, SRC empty, no byte of DST with a known value, `ok` = 1, `val` = 0;
and a DECODE right after it is refused with REF_ZERO_DIM (STATUS 0x92). That the waiting requests, the results and the two
capacities stand is the model's choice (log 20). -/
def Obligations.ResetLeavesInitialState : Prop :=
  ∀ s : State, ∃ t, exec .reset s = .next t ∧
    (∀ n, n ≤ 11 → readReg n t = some 0#32) ∧ t.srcLen = 0 ∧ (∀ a, Memory.read t.src a = none) ∧
    (∀ a, Memory.read t.dst a = none) ∧ t.response = some ⟨true, 0#32⟩ ∧
    t.srcCap = s.srcCap ∧ t.dstCap = s.dstCap ∧ t.pending = s.pending ∧ t.results = s.results ∧
    ∃ u, exec .decode t = .next u ∧ RaisedFrom .refZeroDim t u ∧ u.status = 0x92#32

/-- RELEASE from READY or ERROR: STATE IDLE, SURF none, ERR 0; the configuration registers and SRC keep their values,
PROTO is not cleared, DST becomes undefined. From IDLE it is a protocol violation. -/
def Obligations.ReleaseReturnsToIdle : Prop :=
  ∀ s : State,
    (isIdle s = false → ∃ t, exec .release s = .next t ∧
      statusState t.status = stIdle ∧ statusSurf t.status = surfNone ∧ statusErr t.status = 0#4 ∧
      t.status.extractLsb' 8 24 = s.status.extractLsb' 8 24 ∧
      (∀ a, Memory.read t.dst a = none) ∧ t.response = some ⟨true, 0#32⟩ ∧
      t.cfg = s.cfg ∧ t.src = s.src ∧ t.srcLen = s.srcLen ∧ t.latches = s.latches ∧ t.cursor = s.cursor ∧
      t.srcCap = s.srcCap ∧ t.dstCap = s.dstCap ∧ t.results = s.results ∧ t.pending = s.pending) ∧
    (isIdle s = true → ∃ t, exec .release s = .next t ∧ ViolationFrom s t)

/-! ### Configuration commands -/

/-- WRCFG in IDLE with a register number up to 8 stores the value unchanged in that register and nothing else;
otherwise it is a protocol violation and changes no register. -/
def Obligations.WrcfgWritesOneRegister : Prop :=
  ∀ (a0 a1 : Word) (s : State),
    (isIdle s = true → a0.toNat ≤ 8 → ∃ t, exec (.wrcfg a0 a1) s = .next t ∧
      readReg a0.toNat t = some a1 ∧ (∀ n, n ≠ a0.toNat → readReg n t = readReg n s) ∧
      t.response = some ⟨true, 0#32⟩ ∧ { t with cfg := s.cfg, response := s.response } = s) ∧
    (isIdle s = false ∨ 8 < a0.toNat → ∃ t, exec (.wrcfg a0 a1) s = .next t ∧ ViolationFrom s t)

/-- RDREG answers with the register of numbers 0 to 11 and changes nothing, in every state; ERRINFO0 and ERRINFO1 read as
any value where their content is not defined; a number above 11 is a protocol violation. -/
def Obligations.RdregReadsOneRegister : Prop :=
  ∀ (a0 : Word) (s : State),
    (a0.toNat ≤ 9 ∨ (a0.toNat ≤ 11 ∧ errInfoDefined s = true) →
      ∃ v, readReg a0.toNat s = some v ∧ exec (.rdreg a0) s = .next { s with response := some ⟨true, v⟩ }) ∧
    (a0.toNat = 10 ∨ a0.toNat = 11 → errInfoDefined s = false →
      ∃ v, exec (.rdreg a0) s = .next { s with response := some ⟨true, v⟩, freeTick := s.freeTick + 1 }) ∧
    (11 < a0.toNat → ∃ t, exec (.rdreg a0) s = .next t ∧ ViolationFrom s t)

/-- LOADSRC in IDLE within the capacity replaces the whole of SRC by its payload; otherwise it is a protocol violation. -/
def Obligations.LoadsrcReplacesSource : Prop :=
  ∀ (n : Word) (payload : List Byte) (s : State), payload.length = n.toNat →
    (isIdle s = true → beyondCap s.srcCap n.toNat = false → ∃ t, exec (.loadsrc n payload) s = .next t ∧
      t.srcLen = n.toNat ∧ (∀ a, Memory.read t.src a = payload[a]?) ∧ Memory.wf t.src ∧
      t.response = some ⟨true, 0#32⟩ ∧
      { t with src := s.src, srcLen := s.srcLen, response := s.response } = s) ∧
    (isIdle s = false ∨ beyondCap s.srcCap n.toNat = true →
      ∃ t, exec (.loadsrc n payload) s = .next t ∧ ViolationFrom s t)

/-! ### DECODE -/

/-- DECODE in IDLE with a zero dimension is refused before anything else is looked at. -/
def Obligations.ZeroDimensionIsRefused : Prop :=
  ∀ s : State, isIdle s = true → s.cfg.width = 0#32 ∨ s.cfg.height = 0#32 →
    ∃ t, exec .decode s = .next t ∧ RaisedFrom .refZeroDim s t

/-- A tag that is none of 0, "DXT1", "DXT5": UnsupportedFormatError with the tag and 0 in the info registers. -/
def Obligations.UnknownTagIsUnsupported : Prop :=
  ∀ s : State, isIdle s = true → s.cfg.width ≠ 0#32 → s.cfg.height ≠ 0#32 →
    s.cfg.fourcc ≠ 0x00000000#32 → s.cfg.fourcc ≠ 0x31545844#32 → s.cfg.fourcc ≠ 0x35545844#32 →
    ∃ t, exec .decode s = .next t ∧ RaisedFrom .unsupportedFormatError s t ∧
      t.errInfo0 = s.cfg.fourcc ∧ t.errInfo1 = 0#32

/-- KIND.UNSUPPORTED records the tag it is given, in every state (that the row runs on its own, in every STATE, is the
model's choice, log 15). -/
def Obligations.KindUnsupportedRecordsTag : Prop :=
  ∀ (f : Word) (s : State), ∃ t, exec (.kindUnsupported f) s = .next t ∧
    RaisedFrom .unsupportedFormatError s t ∧ t.errInfo0 = f ∧ t.errInfo1 = 0#32

/-- The tag "DXT1" is refused with REF_BC1_EXTERNAL; KIND.BC1 is that refusal, in every state (the
model's choice, log 15). -/
def Obligations.Bc1IsRefused : Prop :=
  (∀ s : State, ∃ t, exec .kindBc1 s = .next t ∧ RaisedFrom .refBc1External s t) ∧
  (∀ s : State, isIdle s = true → s.cfg.width ≠ 0#32 → s.cfg.height ≠ 0#32 → s.cfg.fourcc = 0x31545844#32 →
    ∃ t, exec .decode s = .next t ∧ RaisedFrom .refBc1External s t)

/-- After its first checks DECODE does what the row its tag selects does. -/
def Obligations.TagSelectsPathOfDecode : Prop :=
  ∀ s : State, isIdle s = true → s.cfg.width ≠ 0#32 → s.cfg.height ≠ 0#32 →
    ∃ i, decode ⟨.tag, leBytes 4 s.cfg.fourcc.toNat⟩ = .ok i ∧ exec .decode s = exec i s

/-- Which outcome a DECODE in IDLE has: the first condition that holds in the order of R198, none of them a success. -/
def Obligations.DecodeReportsFirstError : Prop :=
  ∀ s : State, isIdle s = true → SrcLoaded s →
    ∃ t, exec .decode s = .next t ∧
      statusErr t.status =
        (let w := s.cfg.width.toNat
         let h := s.cfg.height.toNat
         let bits := s.cfg.rgbBitCount.toNat
         if w = 0 ∨ h = 0 then 9#4
         else if s.cfg.fourcc = 0x35545844#32 then
           if s.srcLen < ((w + 3) / 4) * ((h + 3) / 4) * 16 then 4#4
           else if beyondCap s.dstCap (w * h) = true then 10#4
           else 0#4
         else if s.cfg.fourcc = 0x31545844#32 then 8#4
         else if s.cfg.fourcc = 0#32 then
           if s.cfg.pfFlags.getLsbD 0 = false ∨ s.cfg.pfFlags.getLsbD 6 = false then 3#4
           else if bits ≠ 8 ∧ bits ≠ 16 ∧ bits ≠ 32 ∧ bits ≠ 64 then 3#4
           else if s.srcLen < w * (bits / 8) * h then 1#4
           else 0#4
         else 3#4) ∧
      (statusErr t.status = 0#4 ↔ statusState t.status = stReady) ∧
      (statusErr t.status ≠ 0#4 ↔ statusState t.status = stError)

/-- Too little block data: DecodeError; more pixels than DST_CAP: REF_DST_CAP, tested after the length. DECODE and
KIND.BC3 on the registers' dimensions, BC3.IMAGE on its own (both rows in every STATE: the model's choice, log 15). -/
def Obligations.Bc3ChecksLengthThenCapacity : Prop :=
  (∀ (w h : Word) (s : State),
    (s.srcLen < ((w.toNat + 3) / 4) * ((h.toNat + 3) / 4) * 16 →
      ∃ t, exec (.bc3Image w h) s = .next t ∧ RaisedFrom .decodeError s t) ∧
    (((w.toNat + 3) / 4) * ((h.toNat + 3) / 4) * 16 ≤ s.srcLen → beyondCap s.dstCap (w.toNat * h.toNat) = true →
      ∃ t, exec (.bc3Image w h) s = .next t ∧ RaisedFrom .refDstCap s t)) ∧
  (∀ (i : Instr) (s : State), RunsBc3Path s i →
    (s.srcLen < ((s.cfg.width.toNat + 3) / 4) * ((s.cfg.height.toNat + 3) / 4) * 16 →
      ∃ t, exec i s = .next t ∧ RaisedFrom .decodeError s t) ∧
    (((s.cfg.width.toNat + 3) / 4) * ((s.cfg.height.toNat + 3) / 4) * 16 ≤ s.srcLen →
      beyondCap s.dstCap (s.cfg.width.toNat * s.cfg.height.toNat) = true →
      ∃ t, exec i s = .next t ∧ RaisedFrom .refDstCap s t))

/-- UNP.CHECK: the flags, then the bit count, then the length; nothing written on success, the masks not looked at (that
the row runs on its own, in every STATE, and takes operand words for the registers is the model's choice, log 15). -/
def Obligations.UnpCheckTestsInOrder : Prop :=
  ∀ (w h g n : Word) (s : State),
    (g &&& 0x41#32 ≠ 0x41#32 → ∃ t, exec (.unpCheck w h g n) s = .next t ∧
      RaisedFrom .unsupportedFormatError s t ∧ t.errInfo0 = g ∧ t.errInfo1 = n) ∧
    (g &&& 0x41#32 = 0x41#32 → n.toNat ∉ [8, 16, 32, 64] → ∃ t, exec (.unpCheck w h g n) s = .next t ∧
      RaisedFrom .unsupportedFormatError s t ∧ t.errInfo0 = g ∧ t.errInfo1 = n) ∧
    (g &&& 0x41#32 = 0x41#32 → n.toNat ∈ [8, 16, 32, 64] →
      s.srcLen < ((w.toNat * n.toNat + 7) / 8) * h.toNat →
      ∃ t, exec (.unpCheck w h g n) s = .next t ∧ RaisedFrom .ioError s t) ∧
    (g &&& 0x41#32 = 0x41#32 → n.toNat ∈ [8, 16, 32, 64] →
      ((w.toNat * n.toNat + 7) / 8) * h.toNat ≤ s.srcLen → exec (.unpCheck w h g n) s = .next s)

/-- The RAW path of DECODE and KIND.NONE raises what UNP.CHECK raises over the registers, the info registers holding
PF_FLAGS and RGB_BIT_COUNT after an UnsupportedFormatError (KIND.NONE in every STATE: the model's choice, log 15). -/
def Obligations.RawPathRaisesCheckErrors : Prop :=
  ∀ (i : Instr) (s : State), RunsRawPath s i →
    (s.cfg.pfFlags &&& 0x41#32 ≠ 0x41#32 ∨ s.cfg.rgbBitCount.toNat ∉ [8, 16, 32, 64] →
      ∃ t, exec i s = .next t ∧ RaisedFrom .unsupportedFormatError s t ∧
        t.errInfo0 = s.cfg.pfFlags ∧ t.errInfo1 = s.cfg.rgbBitCount) ∧
    (s.cfg.pfFlags &&& 0x41#32 = 0x41#32 → s.cfg.rgbBitCount.toNat ∈ [8, 16, 32, 64] →
      s.srcLen < s.cfg.width.toNat * (s.cfg.rgbBitCount.toNat / 8) * s.cfg.height.toNat →
      ∃ t, exec i s = .next t ∧ RaisedFrom .ioError s t)

/-- A RAW DECODE (or KIND.NONE, log 15) whose checks pass makes a lazy surface and writes neither DST, latches nor
cursor (that bytes of DST which are any value keep theirs is the model's, log 23, and so is the response of KIND.NONE,
log 12). -/
def Obligations.RawDecodeMakesLazySurface : Prop :=
  ∀ (i : Instr) (s : State), RunsRawPath s i →
    s.cfg.pfFlags &&& 0x41#32 = 0x41#32 → s.cfg.rgbBitCount.toNat ∈ [8, 16, 32, 64] →
    s.cfg.width.toNat * (s.cfg.rgbBitCount.toNat / 8) * s.cfg.height.toNat ≤ s.srcLen →
    ∃ t, exec i s = .next t ∧ ReadyFrom surfLazy s t ∧
      t.dst = s.dst ∧ t.latches = s.latches ∧ t.cursor = s.cursor

/-- A BC3 DECODE (or KIND.BC3, log 15) whose checks pass stores the whole image in DST, pixel by pixel as R147 says, and
no byte outside it (that KIND.BC3 on its own gives DECODE's response is the model's choice, log 12). -/
def Obligations.Bc3DecodeStoresImage : Prop :=
  ∀ (i : Instr) (s : State), RunsBc3Path s i → SrcLoaded s →
    ((s.cfg.width.toNat + 3) / 4) * ((s.cfg.height.toNat + 3) / 4) * 16 ≤ s.srcLen →
    beyondCap s.dstCap (s.cfg.width.toNat * s.cfg.height.toNat) = false →
    ∃ t, exec i s = .next t ∧ ReadyFrom surfMaterialised s t ∧
      HoldsImage s s.cfg.width.toNat s.cfg.height.toNat t.dst ∧
      ∀ a, 4 * (s.cfg.width.toNat * s.cfg.height.toNat) ≤ a → Memory.read t.dst a = Memory.read s.dst a

/-- BC3.IMAGE over the dimensions it is given: the image stored as R147 says, no byte outside it, and nothing else
written but the scratch (latches, cursor). That the row runs on its own, in every STATE, over operand words in place of
WIDTH and HEIGHT, zero dimensions included, is the model's choice (log 15). -/
def Obligations.Bc3ImageStoresImage : Prop :=
  ∀ (w h : Word) (s : State), SrcLoaded s →
    ((w.toNat + 3) / 4) * ((h.toNat + 3) / 4) * 16 ≤ s.srcLen →
    beyondCap s.dstCap (w.toNat * h.toNat) = false →
    ∃ t, exec (.bc3Image w h) s = .next t ∧
      HoldsImage s w.toNat h.toNat t.dst ∧
      (∀ a, 4 * (w.toNat * h.toNat) ≤ a → Memory.read t.dst a = Memory.read s.dst a) ∧
      { t with dst := s.dst, latches := s.latches, cursor := s.cursor, freeTick := s.freeTick } = s

/-- The blocks in any order give the same image: every permutation of the row-major list of blocks runs to its end from
any scratch and leaves DST as R147 says, with no byte outside the image changed. -/
def Obligations.Bc3BlockOrderIsFree : Prop :=
  ∀ (w h : Nat) (s : State) (k : Work) (order : List (Nat × Nat)), SrcLoaded s →
    ((w + 3) / 4) * ((h + 3) / 4) * 16 ≤ s.srcLen → beyondCap s.dstCap (w * h) = false →
    order.Perm (rowMajor ((w + 3) / 4) ((h + 3) / 4)) →
    ∃ k', imageBlocks s w h order k = .ok k' ∧ HoldsImage s w h k'.dst ∧
      ∀ a, 4 * (w * h) ≤ a → Memory.read k'.dst a = Memory.read k.dst a

/-- After a BC3 DECODE that succeeds, a lookup inside the image answers with the texel R147 gives. -/
def Obligations.LookupAfterDecodeGivesTexel : Prop :=
  ∀ (s t : State) (x y : Word), isIdle s = true → SrcLoaded s → s.cfg.fourcc = 0x35545844#32 →
    exec .decode s = .next t → isReady t = true →
    x.toNat < s.cfg.width.toNat → y.toNat < s.cfg.height.toNat →
    ∃ bytes : List Byte, bytes.length = 16 ∧
      SrcHolds s (((y.toNat / 4) * ((s.cfg.width.toNat + 3) / 4) + x.toNat / 4) * 16) bytes ∧
      exec (.atXY x y) t = .next { t with response := some ⟨true,
        pixelWord (texelOf (parseBlock (BitVec.ofNat 128 (leNat bytes))) (4 * (y.toNat % 4) + x.toNat % 4))⟩ }

/-- STATE, SURF and ERR after a DECODE, and the bytes a materialised surface holds, are a function of the nine registers,
SRC and the capacity: two units that agree on them, in IDLE, end alike in these, whatever else they hold. What ERRINFO0
and ERRINFO1 hold is said apart (UnknownTagIsUnsupported, RawPathRaisesCheckErrors). -/
def Obligations.DecodeDependsOnlyOnRegistersAndSource : Prop :=
  ∀ s s' t t' : State, isIdle s = true → isIdle s' = true → SrcLoaded s →
    s.cfg = s'.cfg → s.src = s'.src → s.srcLen = s'.srcLen → s.dstCap = s'.dstCap →
    exec .decode s = .next t → exec .decode s' = .next t' →
    statusState t.status = statusState t'.status ∧ statusSurf t.status = statusSurf t'.status ∧
    statusErr t.status = statusErr t'.status ∧
    (isMaterialised t = true →
      ∀ a, a < 4 * (s.cfg.width.toNat * s.cfg.height.toNat) → Memory.read t.dst a = Memory.read t'.dst a)

/-! ### The surface -/

/-- AT on a materialised surface, inside the bounds: served, with the word of the pixel's four bytes where they have
values (any value for a byte that has none, which happens in no reached state), and nothing else changed. -/
def Obligations.AtReadsMaterialisedPixel : Prop :=
  ∀ (x y : Word) (s : State), isReady s = true → isMaterialised s = true →
    x.toNat < s.cfg.width.toNat → y.toNat < s.cfg.height.toNat →
    (∃ v, exec (.atXY x y) s = .next { s with response := some ⟨true, v⟩ }) ∧
    (∀ px : Pixel, HoldsPixel s.dst (y.toNat * s.cfg.width.toNat + x.toNat) px →
      exec (.atXY x y) s = .next { s with response := some ⟨true,
        BitVec.ofNat 32 (px.r.toNat + px.g.toNat * 2 ^ 8 + px.b.toNat * 2 ^ 16 + px.a.toNat * 2 ^ 24)⟩ })

/-- AT on a lazy surface, inside the bounds: the pixel's bytes are inside SRC, and the answer is the pixel they unpack
to; nothing else changes. -/
def Obligations.AtUnpacksLazyPixel : Prop :=
  ∀ (x y : Word) (s : State), isReady s = true → statusSurf s.status = surfLazy → SurfaceChecked s → SrcLoaded s →
    x.toNat < s.cfg.width.toNat → y.toNat < s.cfg.height.toNat →
    ∃ bytes : List Byte, bytes.length = s.cfg.rgbBitCount.toNat / 8 ∧
      SrcHolds s (y.toNat * (s.cfg.width.toNat * (s.cfg.rgbBitCount.toNat / 8)) +
        x.toNat * (s.cfg.rgbBitCount.toNat / 8)) bytes ∧
      exec (.atXY x y) s = .next { s with response := some ⟨true,
        pixelWord (unpackPixel s.cfg (BitVec.ofNat 64 (leNat bytes)))⟩ }

/-- AT outside the bounds is not served: `ok` = 0, any `val`, nothing else changed. -/
def Obligations.AtOutOfBoundsIsNotServed : Prop :=
  ∀ (x y : Word) (s : State), isReady s = true →
    s.cfg.width.toNat ≤ x.toNat ∨ s.cfg.height.toNat ≤ y.toNat →
    ∃ v, exec (.atXY x y) s = .next { s with response := some ⟨false, v⟩, freeTick := s.freeTick + 1 }

/-- RDDST: the byte of a materialised surface, not served past its end, a protocol violation on any other surface. -/
def Obligations.RddstReadsOneByte : Prop :=
  ∀ (k : Word) (s : State),
    (isReady s = true → isMaterialised s = true → k.toNat < 4 * (s.cfg.width.toNat * s.cfg.height.toNat) →
      (∃ v, exec (.rddst k) s = .next { s with response := some ⟨true, v⟩ }) ∧
      (∀ b : Byte, Memory.read s.dst k.toNat = some b →
        exec (.rddst k) s = .next { s with response := some ⟨true, BitVec.ofNat 32 b.toNat⟩ })) ∧
    (isReady s = true → isMaterialised s = true → 4 * (s.cfg.width.toNat * s.cfg.height.toNat) ≤ k.toNat →
      ∃ v, exec (.rddst k) s = .next { s with response := some ⟨false, v⟩, freeTick := s.freeTick + 1 }) ∧
    (isReady s = false ∨ isMaterialised s = false → ∃ t, exec (.rddst k) s = .next t ∧ ViolationFrom s t)

/-- RDDST returns nothing AT could not: byte `k` is byte `k mod 4` of the word AT answers for pixel `k div 4`. -/
def Obligations.RddstAgreesWithAt : Prop :=
  ∀ (k x y : Word) (s t u : State) (b v : Word), isReady s = true → isMaterialised s = true →
    k.toNat < 4 * (s.cfg.width.toNat * s.cfg.height.toNat) →
    x.toNat = (k.toNat / 4) % s.cfg.width.toNat → y.toNat = (k.toNat / 4) / s.cfg.width.toNat →
    exec (.rddst k) s = .next t → exec (.atXY x y) s = .next u →
    t.response = some ⟨true, b⟩ → u.response = some ⟨true, v⟩ →
    b = (v >>> (8 * (k.toNat % 4))) &&& 0xFF#32

/-! ### Blocks -/

/-- BLK.PARSE: the seven latches from the sixteen bytes of a block, little-endian, and nothing else. -/
def Obligations.BlkParseLoadsLatches : Prop :=
  ∀ (b0 b1 b2 b3 b4 b5 b6 b7 b8 b9 b10 b11 b12 b13 b14 b15 : Byte) (s : State),
    exec (.blkParse (BitVec.ofNat 128
      (leNat [b0, b1, b2, b3, b4, b5, b6, b7, b8, b9, b10, b11, b12, b13, b14, b15]))) s =
    .next { s with latches :=
      { a0 := b0, a1 := b1, alo := b3 ++ b2, ahi := b7 ++ b6 ++ b5 ++ b4,
        c0 := b9 ++ b8, c1 := b11 ++ b10, cix := b15 ++ b14 ++ b13 ++ b12 } }

/-- A.SEL: the three cases of R112 are one slice of the 48-bit alpha index table, and nothing but the result changes. -/
def Obligations.AlphaCodeIsTableSlice : Prop :=
  ∀ (t : BitVec 4) (s : State),
    exec (.aSel t) s = .next { s with results := { s.results with
      acode := (s.latches.ahi ++ s.latches.alo).extractLsb' (3 * t.toNat) 3 } }

/-- C.SEL: two bits of the colour index table, and nothing but the result changes. -/
def Obligations.ColourCodeIsTableSlice : Prop :=
  ∀ (t : BitVec 4) (s : State),
    exec (.cSel t) s = .next { s with results := { s.results with
      ccode := s.latches.cix.extractLsb' (2 * t.toNat) 2 } }

/-- A.END0 gives A0, A.END1 gives A1, A5.ZERO gives 0, A5.MAX gives 255, whatever the order of the endpoints. -/
def Obligations.AlphaEndpointsAndConstants : Prop :=
  ∀ s : State,
    exec .aEnd0 s = .next { s with results := { s.results with alpha := s.latches.a0 } } ∧
    exec .aEnd1 s = .next { s with results := { s.results with alpha := s.latches.a1 } } ∧
    exec .a5Zero s = .next { s with results := { s.results with alpha := 0#8 } } ∧
    exec .a5Max s = .next { s with results := { s.results with alpha := 255#8 } }

/-- A7.LERP, codes 2 to 7, where A0 > A1: the truncated weighted mean with no loss in 8 bits, between the endpoints, and
not increasing with the code. -/
def Obligations.SevenStepInterpolation : Prop :=
  ∀ s : State, s.latches.a1.toNat < s.latches.a0.toNat →
    (∀ p ∈ [(Instr.a7Lerp2, 2), (.a7Lerp3, 3), (.a7Lerp4, 4), (.a7Lerp5, 5), (.a7Lerp6, 6), (.a7Lerp7, 7)],
      ∃ v : Byte, exec p.1 s = .next { s with results := { s.results with alpha := v } } ∧
        v.toNat = ((8 - p.2) * s.latches.a0.toNat + (p.2 - 1) * s.latches.a1.toNat) / 7 ∧
        s.latches.a1.toNat ≤ v.toNat ∧ v.toNat ≤ s.latches.a0.toNat) ∧
    (∀ c c' : Nat, 2 ≤ c → c ≤ c' → c' ≤ 7 →
      (lerp7 c' s.latches.a0 s.latches.a1).toNat ≤ (lerp7 c s.latches.a0 s.latches.a1).toNat)

/-- A5.LERP, codes 2 to 5, where A0 ≤ A1: the truncated weighted mean with no loss in 8 bits, between the endpoints, and
not decreasing with the code. -/
def Obligations.FiveStepInterpolation : Prop :=
  ∀ s : State, s.latches.a0.toNat ≤ s.latches.a1.toNat →
    (∀ p ∈ [(Instr.a5Lerp2, 2), (.a5Lerp3, 3), (.a5Lerp4, 4), (.a5Lerp5, 5)],
      ∃ v : Byte, exec p.1 s = .next { s with results := { s.results with alpha := v } } ∧
        v.toNat = ((6 - p.2) * s.latches.a0.toNat + (p.2 - 1) * s.latches.a1.toNat) / 5 ∧
        s.latches.a0.toNat ≤ v.toNat ∧ v.toNat ≤ s.latches.a1.toNat) ∧
    (∀ c c' : Nat, 2 ≤ c → c ≤ c' → c' ≤ 5 →
      (lerp5 c s.latches.a0 s.latches.a1).toNat ≤ (lerp5 c' s.latches.a0 s.latches.a1).toNat)

/-- A selector whose MODE7 bit does not fit the latches still computes its own formula, and nothing else changes. The
model's choice (log 14): the spec forms the selector from the latches and never presents such a one. -/
def Obligations.InterpolationTakesModeAsPresented : Prop :=
  ∀ s : State,
    (∀ p ∈ [(Instr.a7Lerp2, 2), (.a7Lerp3, 3), (.a7Lerp4, 4), (.a7Lerp5, 5), (.a7Lerp6, 6), (.a7Lerp7, 7)],
      exec p.1 s = .next { s with results := { s.results with
        alpha := BitVec.ofNat 8 (((8 - p.2) * s.latches.a0.toNat + (p.2 - 1) * s.latches.a1.toNat) / 7) } }) ∧
    (∀ p ∈ [(Instr.a5Lerp2, 2), (.a5Lerp3, 3), (.a5Lerp4, 4), (.a5Lerp5, 5)],
      exec p.1 s = .next { s with results := { s.results with
        alpha := BitVec.ofNat 8 (((6 - p.2) * s.latches.a0.toNat + (p.2 - 1) * s.latches.a1.toNat) / 5) } })

/-- The alpha code map: with MODE7 and a code presented as the selector, the operation it decodes to computes AlphaOf of
the code. -/
def Obligations.AlphaSelectorComputesAlphaOf : Prop :=
  ∀ (code : BitVec 3) (s : State),
    ∃ i, decode ⟨.alphaSelector,
        [BitVec.ofNat 8 ((if s.latches.a1.toNat < s.latches.a0.toNat then 8 else 0) + code.toNat)]⟩ = .ok i ∧
      exec i s = .next { s with results := { s.results with
        alpha := alphaOf s.latches.a0 s.latches.a1 code } }

/-- The colour code map: the operation a code decodes to computes ColourOf of the code. -/
def Obligations.ColourCodeComputesColourOf : Prop :=
  ∀ (cc : BitVec 2) (s : State),
    ∃ i, decode ⟨.colourCode, [BitVec.ofNat 8 cc.toNat]⟩ = .ok i ∧
      exec i s = .next { s with results := { s.results with
        rgb := colourOf s.latches.c0 s.latches.c1 cc } }

/-- C.EXP565: each field of the word shifted to the top of its byte, its own high bits repeated below. The bit positions
and the formula are the spec's general knowledge (G4, G5; log 17). -/
def Obligations.Rgb565ExpandsByReplication : Prop :=
  ∀ (c : BitVec 16) (s : State), ∃ v : Rgb,
    exec (.cExp565 c) s = .next { s with results := { s.results with rgb := v } } ∧
    v.r.toNat = 8 * (c.toNat / 2 ^ 11) + c.toNat / 2 ^ 11 / 4 ∧
    v.g.toNat = 4 * (c.toNat / 2 ^ 5 % 2 ^ 6) + c.toNat / 2 ^ 5 % 2 ^ 6 / 16 ∧
    v.b.toNat = 8 * (c.toNat % 2 ^ 5) + c.toNat % 2 ^ 5 / 4

/-- C.END0 and C.END1 give the expanded endpoints; C.MIX21 and C.MIX12 the truncated means of their channels, each
channel on its own, with no loss in 8 bits, whatever the order of C0 and C1. -/
def Obligations.ColourEndpointsAndMixes : Prop :=
  ∀ s : State,
    exec .cEnd0 s = .next { s with results := { s.results with rgb := exp565 s.latches.c0 } } ∧
    exec .cEnd1 s = .next { s with results := { s.results with rgb := exp565 s.latches.c1 } } ∧
    (∀ p ∈ [(Instr.cMix21, 2, 1), (.cMix12, 1, 2)], ∃ v : Rgb,
      exec p.1 s = .next { s with results := { s.results with rgb := v } } ∧
      v.r.toNat = (p.2.1 * (exp565 s.latches.c0).r.toNat + p.2.2 * (exp565 s.latches.c1).r.toNat) / 3 ∧
      v.g.toNat = (p.2.1 * (exp565 s.latches.c0).g.toNat + p.2.2 * (exp565 s.latches.c1).g.toNat) / 3 ∧
      v.b.toNat = (p.2.1 * (exp565 s.latches.c0).b.toNat + p.2.2 * (exp565 s.latches.c1).b.toNat) / 3)

/-- BC3.TEXEL puts together what the operations it stands for give one by one: the colour of the operation the texel's
colour code selects and the alpha of the operation its alpha code (with MODE7) selects, neither changing the other. -/
def Obligations.TexelCombinesSelectedOperations : Prop :=
  ∀ (t : BitVec 4) (s : State), ∃ (ia ic : Instr) (sa sc : State),
    decode ⟨.alphaSelector, [BitVec.ofNat 8 ((if s.latches.a1.toNat < s.latches.a0.toNat then 8 else 0) +
      ((s.latches.ahi ++ s.latches.alo).extractLsb' (3 * t.toNat) 3).toNat)]⟩ = .ok ia ∧
    decode ⟨.colourCode, [BitVec.ofNat 8 (s.latches.cix.extractLsb' (2 * t.toNat) 2).toNat]⟩ = .ok ic ∧
    exec ia s = .next sa ∧ exec ic s = .next sc ∧
    exec (.bc3Texel t) s = .next { s with results := { s.results with
      pixel := ⟨sc.results.rgb.r, sc.results.rgb.g, sc.results.rgb.b, sa.results.alpha⟩ } }

/-- BC3.BLOCK of any of the 2^128 blocks is BLK.PARSE and then sixteen texels: entry `4j + i` of the tile is what
BC3.TEXEL gives for that texel. Nothing else changes. -/
def Obligations.BlockDecodesSixteenTexels : Prop :=
  ∀ (v : BitVec 128) (s : State), ∃ (sp : State) (tile : List Pixel),
    exec (.blkParse v) s = .next sp ∧
      exec (.bc3Block v) s = .next { sp with results := { sp.results with tile := tile } } ∧
      tile.length = 16 ∧
      ∀ t : BitVec 4, ∃ st, exec (.bc3Texel t) sp = .next st ∧ tile[t.toNat]? = some st.results.pixel

/-- TEXEL.PUT: inside the image (and DST) the four bytes of pixel `y*W + x` are written, R first, and no other byte; an
overhanging texel changes no state at all. A pixel past DST_CAP does not exist: it stops with the fault that names it (the
model's choice of a stop, log 16). -/
def Obligations.TexelPutWritesOrDrops : Prop :=
  ∀ (x y p : Word) (s : State),
    (x.toNat < s.cfg.width.toNat → y.toNat < s.cfg.height.toNat →
      beyondCap s.dstCap (y.toNat * s.cfg.width.toNat + x.toNat + 1) = false →
      ∃ t, exec (.texelPut x y p) s = .next t ∧
        HoldsPixel t.dst (y.toNat * s.cfg.width.toNat + x.toNat)
          ⟨p.extractLsb' 0 8, p.extractLsb' 8 8, p.extractLsb' 16 8, p.extractLsb' 24 8⟩ ∧
        (∀ a, a / 4 ≠ y.toNat * s.cfg.width.toNat + x.toNat → Memory.read t.dst a = Memory.read s.dst a) ∧
        { t with dst := s.dst } = s) ∧
    (x.toNat < s.cfg.width.toNat → y.toNat < s.cfg.height.toNat →
      beyondCap s.dstCap (y.toNat * s.cfg.width.toNat + x.toNat + 1) = true →
      exec (.texelPut x y p) s = .fault (.dstOutOfRange (y.toNat * s.cfg.width.toNat + x.toNat))) ∧
    (s.cfg.width.toNat ≤ x.toNat ∨ s.cfg.height.toNat ≤ y.toNat → exec (.texelPut x y p) s = .next s)

/-! ### The unpacker -/

/-- UNP.FETCH of 8, 16, 32 or 64 bits: where the pixel's bytes are inside SRC, `d` is their little-endian value, and
nothing else changes. -/
def Obligations.UnpFetchReadsPixel : Prop :=
  ∀ (x y : Word) (s : State), SrcLoaded s →
    ∀ p ∈ [(Instr.unpFetch8 x y, 1), (.unpFetch16 x y, 2), (.unpFetch32 x y, 4), (.unpFetch64 x y, 8)],
      y.toNat * (s.cfg.width.toNat * p.2) + x.toNat * p.2 + p.2 ≤ s.srcLen →
      ∃ (bytes : List Byte) (d : BitVec 64), bytes.length = p.2 ∧
        SrcHolds s (y.toNat * (s.cfg.width.toNat * p.2) + x.toNat * p.2) bytes ∧
        d.toNat = leNat bytes ∧
        exec p.1 s = .next { s with results := { s.results with d := d } }

/-- UNP.FETCH whose bytes are not all inside SRC has no defined read: it stops with the fault that names it (the model's
choice of a stop, log 16). -/
def Obligations.UnpFetchOutsideSourceFaults : Prop :=
  ∀ (x y : Word) (s : State),
    ∀ p ∈ [(Instr.unpFetch8 x y, 1), (.unpFetch16 x y, 2), (.unpFetch32 x y, 4), (.unpFetch64 x y, 8)],
      s.srcLen < y.toNat * (s.cfg.width.toNat * p.2) + x.toNat * p.2 + p.2 →
      exec p.1 s = .fault (.srcOutOfRange (y.toNat * (s.cfg.width.toNat * p.2) + x.toNat * p.2) p.2)

/-- UNP.CHAN: a zero mask gives 0; any other masks, shifts right by the index of its lowest set bit, and keeps the low
8 bits. -/
def Obligations.ChannelMasksShiftsTruncates : Prop :=
  ∀ (d : BitVec 64) (m : Word) (s : State), ∃ v : Byte,
    exec (.unpChan d m) s = .next { s with results := { s.results with chan := v } } ∧
    (m = 0#32 → v = 0#8) ∧
    (∀ k : Nat, m.getLsbD k = true → (∀ j, j < k → m.getLsbD j = false) →
      v.toNat = (d &&& m.setWidth 64).toNat / 2 ^ k % 256)

/-- UNP.PIXEL: the fetch that the bit count selects, then UNP.CHAN with each of the four masks; nothing else changes. -/
def Obligations.UnpPixelUnpacksFourChannels : Prop :=
  ∀ (x y : Word) (i : Instr) (s sf : State),
    decode ⟨.bitCount, leBytes 4 s.cfg.rgbBitCount.toNat ++ leBytes 4 x.toNat ++ leBytes 4 y.toNat⟩ = .ok i →
    s.cfg.rgbBitCount.toNat ∈ [8, 16, 32, 64] → exec i s = .next sf →
    ∃ sr sg sb sa,
      exec (.unpChan sf.results.d s.cfg.rmask) s = .next sr ∧ exec (.unpChan sf.results.d s.cfg.gmask) s = .next sg ∧
      exec (.unpChan sf.results.d s.cfg.bmask) s = .next sb ∧ exec (.unpChan sf.results.d s.cfg.amask) s = .next sa ∧
      exec (.unpPixel x y) s = .next { s with results := { s.results with
        pixel := ⟨sr.results.chan, sg.results.chan, sb.results.chan, sa.results.chan⟩ } }

/-- UNP.PIXEL completes for every coordinate inside an image that passed UNP.CHECK. -/
def Obligations.UnpPixelCompletesInBounds : Prop :=
  ∀ (x y : Word) (s : State), SrcLoaded s →
    rawCheck s.cfg.width s.cfg.height s.cfg.pfFlags s.cfg.rgbBitCount s.srcLen = none →
    x.toNat < s.cfg.width.toNat → y.toNat < s.cfg.height.toNat →
    ∃ px : Pixel, exec (.unpPixel x y) s = .next { s with results := { s.results with pixel := px } }

/-- UNP.BADBITS: UnsupportedFormatError with PF_FLAGS and the bit count in the info registers (the row on its own, in
every STATE: the model's choice, log 15). -/
def Obligations.BadBitCountIsUnsupported : Prop :=
  ∀ (n : Word) (s : State), ∃ t, exec (.unpBadbits n) s = .next t ∧
    RaisedFrom .unsupportedFormatError s t ∧ t.errInfo0 = s.cfg.pfFlags ∧ t.errInfo1 = n

/-- KIND.DECODE: the kind of a tag, all 32 bits matched, nothing else read or written. That the row runs on its own, in
every STATE, and that its operand word takes the place of the register FOURCC is the model's choice (log 15). -/
def Obligations.KindDecodeMapsTag : Prop :=
  ∀ (f : Word) (s : State),
    exec (.kindDecode f) s = .next { s with results := { s.results with
      kind := if f = 0x00000000#32 then .none else if f = 0x31545844#32 then .bc1
        else if f = 0x35545844#32 then .bc3 else .unsupported f } }
end

