-- ==== Sys2Proof/Laws/Memory.lean ====
section
/-! SUPPORT. The laws of the memory operations: a read after a write, the canonical form, and what a load lists. -/

namespace Sys2Proof.Machine

/-! ### Read after write -/

@[simp] theorem read_anyValue (a : Nat) : Memory.read Memory.anyValue a = none := rfl

theorem read_write (m : Memory) (a : Nat) (b : Byte) (x : Nat) :
    Memory.read (Memory.write m a b) x = if x = a then some b else Memory.read m x := by
  induction m with
  | nil => rfl
  | cons e m ih =>
    obtain ⟨k, c⟩ := e
    simp only [Memory.write]
    split
    · simp only [Memory.read]
    · split
      · subst_vars
        simp only [Memory.read]
        split <;> rfl
      · simp only [Memory.read, ih]
        split
        · subst_vars
          rw [if_neg (by omega)]
        · rfl

@[simp] theorem read_write_same (m : Memory) (a : Nat) (b : Byte) :
    Memory.read (Memory.write m a b) a = some b := by
  rw [read_write, if_pos rfl]

theorem read_write_other (m : Memory) (a : Nat) (b : Byte) (x : Nat) (h : x ≠ a) :
    Memory.read (Memory.write m a b) x = Memory.read m x := by
  rw [read_write, if_neg h]

/-! ### The canonical form -/

theorem wf_anyValue : Memory.wf Memory.anyValue := List.Pairwise.nil

/-- Where a write can put an address: at the written one or at an old one. -/
theorem mem_write (m : Memory) (a : Nat) (b : Byte) (x : Nat) (h : x ∈ (Memory.write m a b).map Prod.fst) :
    x = a ∨ x ∈ m.map Prod.fst := by
  induction m with
  | nil => simpa [Memory.write] using h
  | cons e m ih =>
    obtain ⟨k, c⟩ := e
    simp only [Memory.write] at h
    split at h
    · simpa using h
    · split at h
      · simp only [List.map_cons, List.mem_cons] at h ⊢
        tauto
      · simp only [List.map_cons, List.mem_cons] at h ⊢
        rcases h with h | h
        · exact .inr (.inl h)
        · exact (ih h).imp id .inr

theorem wf_write (m : Memory) (a : Nat) (b : Byte) (h : Memory.wf m) : Memory.wf (Memory.write m a b) := by
  induction m with
  | nil => simp [Memory.wf, Memory.write]
  | cons e m ih =>
    obtain ⟨k, c⟩ := e
    obtain ⟨hk, hm⟩ := List.pairwise_cons.mp h
    simp only [Memory.write]
    split
    case isTrue hlt =>
      refine List.pairwise_cons.mpr ⟨fun x hx => ?_, h⟩
      rcases List.mem_cons.mp hx with rfl | hx
      · exact hlt
      · exact Nat.lt_trans hlt (hk x hx)
    case isFalse hge =>
      split
      · subst_vars
        exact List.pairwise_cons.mpr ⟨hk, hm⟩
      · refine List.pairwise_cons.mpr ⟨fun x hx => ?_, ih hm⟩
        rcases mem_write m a b x hx with rfl | hx
        · simp only at hge ⊢
          omega
        · exact hk x hx

/-! ### One pixel -/

theorem wf_writePixel (m : Memory) (p : Nat) (px : Pixel) (h : Memory.wf m) : Memory.wf (writePixel m p px) :=
  wf_write _ _ _ (wf_write _ _ _ (wf_write _ _ _ (wf_write _ _ _ h)))

/-- A pixel's four bytes and no other (20_memory.md R44). -/
theorem read_writePixel (m : Memory) (p : Nat) (px : Pixel) (x : Nat) :
    Memory.read (writePixel m p px) x =
      if x = 4 * p + 3 then some px.a else if x = 4 * p + 2 then some px.b
      else if x = 4 * p + 1 then some px.g else if x = 4 * p then some px.r else Memory.read m x := by
  simp only [writePixel, Config.pixelBytes, read_write]

theorem read_writePixel_other (m : Memory) (p : Nat) (px : Pixel) (x : Nat) (h : x / 4 ≠ p) :
    Memory.read (writePixel m p px) x = Memory.read m x := by
  rw [read_writePixel, if_neg (by omega), if_neg (by omega), if_neg (by omega), if_neg (by omega)]

theorem read_writePixel_isSome (m : Memory) (p : Nat) (px : Pixel) (x : Nat) :
    (Memory.read (writePixel m p px) x).isSome = true ↔ x / 4 = p ∨ (Memory.read m x).isSome = true := by
  by_cases h : x / 4 = p
  · have hx : x = 4 * p + 3 ∨ x = 4 * p + 2 ∨ x = 4 * p + 1 ∨ x = 4 * p := by omega
    rcases hx with rfl | rfl | rfl | rfl <;> simp [read_writePixel, h]
  · rw [read_writePixel_other m p px x h]
    simp [h]

/-! ### A load -/

theorem read_ofBytes (bs : List Byte) (a x : Nat) :
    Memory.read (Memory.ofBytes a bs) x = if a ≤ x then bs[x - a]? else none := by
  induction bs generalizing a with
  | nil => simp [Memory.ofBytes, Memory.read, Memory.unlisted]
  | cons b bs ih =>
    simp only [Memory.ofBytes, Memory.read, ih]
    split
    case isTrue h => simp [h]
    case isFalse h =>
      by_cases hx : a + 1 ≤ x
      · rw [if_pos hx, if_pos (by omega), show x - a = (x - (a + 1)) + 1 by omega, List.getElem?_cons_succ]
      · rw [if_neg hx, if_neg (by omega)]

/-- A load lists exactly the offsets below its length (10_state.md R25). -/
theorem read_ofBytes_isSome (bs : List Byte) (x : Nat) :
    (Memory.read (Memory.ofBytes 0 bs) x).isSome = true ↔ x < bs.length := by
  simp [read_ofBytes]

theorem wf_ofBytes (bs : List Byte) (a : Nat) : Memory.wf (Memory.ofBytes a bs) := by
  induction bs generalizing a with
  | nil => exact List.Pairwise.nil
  | cons b bs ih =>
    refine List.pairwise_cons.mpr ⟨fun x hx => ?_, ih (a + 1)⟩
    have above : ∀ (bs : List Byte) (k : Nat), ∀ x ∈ (Memory.ofBytes k bs).map Prod.fst, k ≤ x := by
      intro bs
      induction bs with
      | nil => intro k x hx; simp [Memory.ofBytes] at hx
      | cons c cs ih' =>
        intro k x hx
        rcases List.mem_cons.mp hx with rfl | hx
        · exact Nat.le_refl _
        · exact Nat.le_of_succ_le (ih' (k + 1) x hx)
    exact above bs (a + 1) x hx

/-! ### Reads of several bytes -/

/-- Where all the bytes are listed, the read gives them. -/
theorem readBytes_listed (m : Memory) (off n : Nat)
    (h : ∀ x, off ≤ x → x < off + n → (Memory.read m x).isSome = true) :
    ∃ bs, readBytes m off n = .ok bs ∧ bs.length = n ∧
      ∀ k (hk : k < bs.length), Memory.read m (off + k) = some bs[k] := by
  induction n generalizing off with
  | zero => exact ⟨[], rfl, rfl, fun k hk => absurd hk (Nat.not_lt_zero k)⟩
  | succ n ih =>
    obtain ⟨b, hb⟩ := Option.isSome_iff_exists.mp (h off (Nat.le_refl _) (by omega))
    obtain ⟨bs, hbs, hlen, hget⟩ := ih (off + 1) (fun x hx hx' => h x (by omega) (by omega))
    refine ⟨b :: bs, by simp only [readBytes, hb, hbs], by simp [hlen], fun k hk => ?_⟩
    cases k with
    | zero => simpa using hb
    | succ k =>
      simp only [List.length_cons] at hk
      have := hget k (by omega)
      simpa [show off + 1 + k = off + (k + 1) by omega] using this

end Sys2Proof.Machine
end

