-- ==== Sys2Proof/Laws/State.lean ====
section
/-! SUPPORT. What each named update of the state does to each field: one lemma per field per update, so that no proof
unfolds a record update. -/

namespace Sys2Proof.Machine

/-! ### setResults -/

@[simp] theorem setResults_cfg (r : Results) (s : State) :
    (setResults r s).cfg = s.cfg := rfl
@[simp] theorem setResults_status (r : Results) (s : State) :
    (setResults r s).status = s.status := rfl
@[simp] theorem setResults_errInfo0 (r : Results) (s : State) :
    (setResults r s).errInfo0 = s.errInfo0 := rfl
@[simp] theorem setResults_errInfo1 (r : Results) (s : State) :
    (setResults r s).errInfo1 = s.errInfo1 := rfl
@[simp] theorem setResults_src (r : Results) (s : State) :
    (setResults r s).src = s.src := rfl
@[simp] theorem setResults_srcLen (r : Results) (s : State) :
    (setResults r s).srcLen = s.srcLen := rfl
@[simp] theorem setResults_dst (r : Results) (s : State) :
    (setResults r s).dst = s.dst := rfl
@[simp] theorem setResults_latches (r : Results) (s : State) :
    (setResults r s).latches = s.latches := rfl
@[simp] theorem setResults_cursor (r : Results) (s : State) :
    (setResults r s).cursor = s.cursor := rfl
@[simp] theorem setResults_srcCap (r : Results) (s : State) :
    (setResults r s).srcCap = s.srcCap := rfl
@[simp] theorem setResults_dstCap (r : Results) (s : State) :
    (setResults r s).dstCap = s.dstCap := rfl
@[simp] theorem setResults_results (r : Results) (s : State) :
    (setResults r s).results = r := rfl
@[simp] theorem setResults_pending (r : Results) (s : State) :
    (setResults r s).pending = s.pending := rfl
@[simp] theorem setResults_response (r : Results) (s : State) :
    (setResults r s).response = s.response := rfl
@[simp] theorem setResults_freeTick (r : Results) (s : State) :
    (setResults r s).freeTick = s.freeTick := rfl

/-! ### setLatches -/

@[simp] theorem setLatches_cfg (l : Latches) (s : State) :
    (setLatches l s).cfg = s.cfg := rfl
@[simp] theorem setLatches_status (l : Latches) (s : State) :
    (setLatches l s).status = s.status := rfl
@[simp] theorem setLatches_errInfo0 (l : Latches) (s : State) :
    (setLatches l s).errInfo0 = s.errInfo0 := rfl
@[simp] theorem setLatches_errInfo1 (l : Latches) (s : State) :
    (setLatches l s).errInfo1 = s.errInfo1 := rfl
@[simp] theorem setLatches_src (l : Latches) (s : State) :
    (setLatches l s).src = s.src := rfl
@[simp] theorem setLatches_srcLen (l : Latches) (s : State) :
    (setLatches l s).srcLen = s.srcLen := rfl
@[simp] theorem setLatches_dst (l : Latches) (s : State) :
    (setLatches l s).dst = s.dst := rfl
@[simp] theorem setLatches_latches (l : Latches) (s : State) :
    (setLatches l s).latches = l := rfl
@[simp] theorem setLatches_cursor (l : Latches) (s : State) :
    (setLatches l s).cursor = s.cursor := rfl
@[simp] theorem setLatches_srcCap (l : Latches) (s : State) :
    (setLatches l s).srcCap = s.srcCap := rfl
@[simp] theorem setLatches_dstCap (l : Latches) (s : State) :
    (setLatches l s).dstCap = s.dstCap := rfl
@[simp] theorem setLatches_results (l : Latches) (s : State) :
    (setLatches l s).results = s.results := rfl
@[simp] theorem setLatches_pending (l : Latches) (s : State) :
    (setLatches l s).pending = s.pending := rfl
@[simp] theorem setLatches_response (l : Latches) (s : State) :
    (setLatches l s).response = s.response := rfl
@[simp] theorem setLatches_freeTick (l : Latches) (s : State) :
    (setLatches l s).freeTick = s.freeTick := rfl

/-! ### setDst -/

@[simp] theorem setDst_cfg (m : Memory) (s : State) :
    (setDst m s).cfg = s.cfg := rfl
@[simp] theorem setDst_status (m : Memory) (s : State) :
    (setDst m s).status = s.status := rfl
@[simp] theorem setDst_errInfo0 (m : Memory) (s : State) :
    (setDst m s).errInfo0 = s.errInfo0 := rfl
@[simp] theorem setDst_errInfo1 (m : Memory) (s : State) :
    (setDst m s).errInfo1 = s.errInfo1 := rfl
@[simp] theorem setDst_src (m : Memory) (s : State) :
    (setDst m s).src = s.src := rfl
@[simp] theorem setDst_srcLen (m : Memory) (s : State) :
    (setDst m s).srcLen = s.srcLen := rfl
@[simp] theorem setDst_dst (m : Memory) (s : State) :
    (setDst m s).dst = m := rfl
@[simp] theorem setDst_latches (m : Memory) (s : State) :
    (setDst m s).latches = s.latches := rfl
@[simp] theorem setDst_cursor (m : Memory) (s : State) :
    (setDst m s).cursor = s.cursor := rfl
@[simp] theorem setDst_srcCap (m : Memory) (s : State) :
    (setDst m s).srcCap = s.srcCap := rfl
@[simp] theorem setDst_dstCap (m : Memory) (s : State) :
    (setDst m s).dstCap = s.dstCap := rfl
@[simp] theorem setDst_results (m : Memory) (s : State) :
    (setDst m s).results = s.results := rfl
@[simp] theorem setDst_pending (m : Memory) (s : State) :
    (setDst m s).pending = s.pending := rfl
@[simp] theorem setDst_response (m : Memory) (s : State) :
    (setDst m s).response = s.response := rfl
@[simp] theorem setDst_freeTick (m : Memory) (s : State) :
    (setDst m s).freeTick = s.freeTick := rfl

/-! ### respond -/

@[simp] theorem respond_cfg (ok : Bool) (v : Word) (s : State) :
    (respond ok v s).cfg = s.cfg := rfl
@[simp] theorem respond_status (ok : Bool) (v : Word) (s : State) :
    (respond ok v s).status = s.status := rfl
@[simp] theorem respond_errInfo0 (ok : Bool) (v : Word) (s : State) :
    (respond ok v s).errInfo0 = s.errInfo0 := rfl
@[simp] theorem respond_errInfo1 (ok : Bool) (v : Word) (s : State) :
    (respond ok v s).errInfo1 = s.errInfo1 := rfl
@[simp] theorem respond_src (ok : Bool) (v : Word) (s : State) :
    (respond ok v s).src = s.src := rfl
@[simp] theorem respond_srcLen (ok : Bool) (v : Word) (s : State) :
    (respond ok v s).srcLen = s.srcLen := rfl
@[simp] theorem respond_dst (ok : Bool) (v : Word) (s : State) :
    (respond ok v s).dst = s.dst := rfl
@[simp] theorem respond_latches (ok : Bool) (v : Word) (s : State) :
    (respond ok v s).latches = s.latches := rfl
@[simp] theorem respond_cursor (ok : Bool) (v : Word) (s : State) :
    (respond ok v s).cursor = s.cursor := rfl
@[simp] theorem respond_srcCap (ok : Bool) (v : Word) (s : State) :
    (respond ok v s).srcCap = s.srcCap := rfl
@[simp] theorem respond_dstCap (ok : Bool) (v : Word) (s : State) :
    (respond ok v s).dstCap = s.dstCap := rfl
@[simp] theorem respond_results (ok : Bool) (v : Word) (s : State) :
    (respond ok v s).results = s.results := rfl
@[simp] theorem respond_pending (ok : Bool) (v : Word) (s : State) :
    (respond ok v s).pending = s.pending := rfl
@[simp] theorem respond_response (ok : Bool) (v : Word) (s : State) :
    (respond ok v s).response = some ⟨ok, v⟩ := rfl
@[simp] theorem respond_freeTick (ok : Bool) (v : Word) (s : State) :
    (respond ok v s).freeTick = s.freeTick := rfl

/-! ### respondAny -/

@[simp] theorem respondAny_cfg (ok : Bool) (s : State) :
    (respondAny ok s).cfg = s.cfg := rfl
@[simp] theorem respondAny_status (ok : Bool) (s : State) :
    (respondAny ok s).status = s.status := rfl
@[simp] theorem respondAny_errInfo0 (ok : Bool) (s : State) :
    (respondAny ok s).errInfo0 = s.errInfo0 := rfl
@[simp] theorem respondAny_errInfo1 (ok : Bool) (s : State) :
    (respondAny ok s).errInfo1 = s.errInfo1 := rfl
@[simp] theorem respondAny_src (ok : Bool) (s : State) :
    (respondAny ok s).src = s.src := rfl
@[simp] theorem respondAny_srcLen (ok : Bool) (s : State) :
    (respondAny ok s).srcLen = s.srcLen := rfl
@[simp] theorem respondAny_dst (ok : Bool) (s : State) :
    (respondAny ok s).dst = s.dst := rfl
@[simp] theorem respondAny_latches (ok : Bool) (s : State) :
    (respondAny ok s).latches = s.latches := rfl
@[simp] theorem respondAny_cursor (ok : Bool) (s : State) :
    (respondAny ok s).cursor = s.cursor := rfl
@[simp] theorem respondAny_srcCap (ok : Bool) (s : State) :
    (respondAny ok s).srcCap = s.srcCap := rfl
@[simp] theorem respondAny_dstCap (ok : Bool) (s : State) :
    (respondAny ok s).dstCap = s.dstCap := rfl
@[simp] theorem respondAny_results (ok : Bool) (s : State) :
    (respondAny ok s).results = s.results := rfl
@[simp] theorem respondAny_pending (ok : Bool) (s : State) :
    (respondAny ok s).pending = s.pending := rfl
@[simp] theorem respondAny_response (ok : Bool) (s : State) :
    (respondAny ok s).response = some ⟨ok, freeNow s 0⟩ := rfl
@[simp] theorem respondAny_freeTick (ok : Bool) (s : State) :
    (respondAny ok s).freeTick = s.freeTick + 1 := rfl

/-! ### protocolViolation -/

@[simp] theorem protocolViolation_cfg (s : State) :
    (protocolViolation s).cfg = s.cfg := rfl
@[simp] theorem protocolViolation_status (s : State) :
    (protocolViolation s).status = setProto s.status := rfl
@[simp] theorem protocolViolation_errInfo0 (s : State) :
    (protocolViolation s).errInfo0 = s.errInfo0 := rfl
@[simp] theorem protocolViolation_errInfo1 (s : State) :
    (protocolViolation s).errInfo1 = s.errInfo1 := rfl
@[simp] theorem protocolViolation_src (s : State) :
    (protocolViolation s).src = s.src := rfl
@[simp] theorem protocolViolation_srcLen (s : State) :
    (protocolViolation s).srcLen = s.srcLen := rfl
@[simp] theorem protocolViolation_dst (s : State) :
    (protocolViolation s).dst = s.dst := rfl
@[simp] theorem protocolViolation_latches (s : State) :
    (protocolViolation s).latches = s.latches := rfl
@[simp] theorem protocolViolation_cursor (s : State) :
    (protocolViolation s).cursor = s.cursor := rfl
@[simp] theorem protocolViolation_srcCap (s : State) :
    (protocolViolation s).srcCap = s.srcCap := rfl
@[simp] theorem protocolViolation_dstCap (s : State) :
    (protocolViolation s).dstCap = s.dstCap := rfl
@[simp] theorem protocolViolation_results (s : State) :
    (protocolViolation s).results = s.results := rfl
@[simp] theorem protocolViolation_pending (s : State) :
    (protocolViolation s).pending = s.pending := rfl
@[simp] theorem protocolViolation_response (s : State) :
    (protocolViolation s).response = some ⟨false, freeNow s 0⟩ := rfl
@[simp] theorem protocolViolation_freeTick (s : State) :
    (protocolViolation s).freeTick = s.freeTick + 1 := rfl

/-! ### raise -/

@[simp] theorem raise_cfg (c : Cause) (i j : Word) (s : State) :
    (raise c i j s).cfg = s.cfg := rfl
@[simp] theorem raise_status (c : Cause) (i j : Word) (s : State) :
    (raise c i j s).status = setOutcome stError surfNone (causeCode c) s.status := rfl
@[simp] theorem raise_errInfo0 (c : Cause) (i j : Word) (s : State) :
    (raise c i j s).errInfo0 = if c == .unsupportedFormatError then i else freeNow s 1 := rfl
@[simp] theorem raise_errInfo1 (c : Cause) (i j : Word) (s : State) :
    (raise c i j s).errInfo1 = if c == .unsupportedFormatError then j else freeNow s 2 := rfl
@[simp] theorem raise_src (c : Cause) (i j : Word) (s : State) :
    (raise c i j s).src = s.src := rfl
@[simp] theorem raise_srcLen (c : Cause) (i j : Word) (s : State) :
    (raise c i j s).srcLen = s.srcLen := rfl
@[simp] theorem raise_dst (c : Cause) (i j : Word) (s : State) :
    (raise c i j s).dst = Memory.anyValue := rfl
@[simp] theorem raise_latches (c : Cause) (i j : Word) (s : State) :
    (raise c i j s).latches = s.latches := rfl
@[simp] theorem raise_cursor (c : Cause) (i j : Word) (s : State) :
    (raise c i j s).cursor = s.cursor := rfl
@[simp] theorem raise_srcCap (c : Cause) (i j : Word) (s : State) :
    (raise c i j s).srcCap = s.srcCap := rfl
@[simp] theorem raise_dstCap (c : Cause) (i j : Word) (s : State) :
    (raise c i j s).dstCap = s.dstCap := rfl
@[simp] theorem raise_results (c : Cause) (i j : Word) (s : State) :
    (raise c i j s).results = s.results := rfl
@[simp] theorem raise_pending (c : Cause) (i j : Word) (s : State) :
    (raise c i j s).pending = s.pending := rfl
@[simp] theorem raise_response (c : Cause) (i j : Word) (s : State) :
    (raise c i j s).response = some ⟨false, setOutcome stError surfNone (causeCode c) s.status⟩ := rfl
@[simp] theorem raise_freeTick (c : Cause) (i j : Word) (s : State) :
    (raise c i j s).freeTick = s.freeTick + 1 := rfl

/-! ### releaseSurface -/

@[simp] theorem releaseSurface_cfg (s : State) :
    (releaseSurface s).cfg = s.cfg := rfl
@[simp] theorem releaseSurface_status (s : State) :
    (releaseSurface s).status = setOutcome stIdle surfNone 0#4 s.status := rfl
@[simp] theorem releaseSurface_errInfo0 (s : State) :
    (releaseSurface s).errInfo0 = freeNow s 1 := rfl
@[simp] theorem releaseSurface_errInfo1 (s : State) :
    (releaseSurface s).errInfo1 = freeNow s 2 := rfl
@[simp] theorem releaseSurface_src (s : State) :
    (releaseSurface s).src = s.src := rfl
@[simp] theorem releaseSurface_srcLen (s : State) :
    (releaseSurface s).srcLen = s.srcLen := rfl
@[simp] theorem releaseSurface_dst (s : State) :
    (releaseSurface s).dst = Memory.anyValue := rfl
@[simp] theorem releaseSurface_latches (s : State) :
    (releaseSurface s).latches = s.latches := rfl
@[simp] theorem releaseSurface_cursor (s : State) :
    (releaseSurface s).cursor = s.cursor := rfl
@[simp] theorem releaseSurface_srcCap (s : State) :
    (releaseSurface s).srcCap = s.srcCap := rfl
@[simp] theorem releaseSurface_dstCap (s : State) :
    (releaseSurface s).dstCap = s.dstCap := rfl
@[simp] theorem releaseSurface_results (s : State) :
    (releaseSurface s).results = s.results := rfl
@[simp] theorem releaseSurface_pending (s : State) :
    (releaseSurface s).pending = s.pending := rfl
@[simp] theorem releaseSurface_response (s : State) :
    (releaseSurface s).response = some ⟨true, 0#32⟩ := rfl
@[simp] theorem releaseSurface_freeTick (s : State) :
    (releaseSurface s).freeTick = s.freeTick + 1 := rfl

/-! ### becomeReady -/

@[simp] theorem becomeReady_cfg (v : BitVec 2) (s : State) :
    (becomeReady v s).cfg = s.cfg := rfl
@[simp] theorem becomeReady_status (v : BitVec 2) (s : State) :
    (becomeReady v s).status = setOutcome stReady v 0#4 s.status := rfl
@[simp] theorem becomeReady_errInfo0 (v : BitVec 2) (s : State) :
    (becomeReady v s).errInfo0 = freeNow s 1 := rfl
@[simp] theorem becomeReady_errInfo1 (v : BitVec 2) (s : State) :
    (becomeReady v s).errInfo1 = freeNow s 2 := rfl
@[simp] theorem becomeReady_src (v : BitVec 2) (s : State) :
    (becomeReady v s).src = s.src := rfl
@[simp] theorem becomeReady_srcLen (v : BitVec 2) (s : State) :
    (becomeReady v s).srcLen = s.srcLen := rfl
@[simp] theorem becomeReady_dst (v : BitVec 2) (s : State) :
    (becomeReady v s).dst = s.dst := rfl
@[simp] theorem becomeReady_latches (v : BitVec 2) (s : State) :
    (becomeReady v s).latches = s.latches := rfl
@[simp] theorem becomeReady_cursor (v : BitVec 2) (s : State) :
    (becomeReady v s).cursor = s.cursor := rfl
@[simp] theorem becomeReady_srcCap (v : BitVec 2) (s : State) :
    (becomeReady v s).srcCap = s.srcCap := rfl
@[simp] theorem becomeReady_dstCap (v : BitVec 2) (s : State) :
    (becomeReady v s).dstCap = s.dstCap := rfl
@[simp] theorem becomeReady_results (v : BitVec 2) (s : State) :
    (becomeReady v s).results = s.results := rfl
@[simp] theorem becomeReady_pending (v : BitVec 2) (s : State) :
    (becomeReady v s).pending = s.pending := rfl
@[simp] theorem becomeReady_response (v : BitVec 2) (s : State) :
    (becomeReady v s).response = some ⟨true, setOutcome stReady v 0#4 s.status⟩ := rfl
@[simp] theorem becomeReady_freeTick (v : BitVec 2) (s : State) :
    (becomeReady v s).freeTick = s.freeTick + 1 := rfl

/-! ### resetUnit -/

@[simp] theorem resetUnit_cfg (s : State) :
    (resetUnit s).cfg = CfgRegs.zero := rfl
@[simp] theorem resetUnit_status (s : State) :
    (resetUnit s).status = 0#32 := rfl
@[simp] theorem resetUnit_errInfo0 (s : State) :
    (resetUnit s).errInfo0 = 0#32 := rfl
@[simp] theorem resetUnit_errInfo1 (s : State) :
    (resetUnit s).errInfo1 = 0#32 := rfl
@[simp] theorem resetUnit_src (s : State) :
    (resetUnit s).src = [] := rfl
@[simp] theorem resetUnit_srcLen (s : State) :
    (resetUnit s).srcLen = 0 := rfl
@[simp] theorem resetUnit_dst (s : State) :
    (resetUnit s).dst = Memory.anyValue := rfl
@[simp] theorem resetUnit_latches (s : State) :
    (resetUnit s).latches = freeLatches s := rfl
@[simp] theorem resetUnit_cursor (s : State) :
    (resetUnit s).cursor = freeCursor s := rfl
@[simp] theorem resetUnit_srcCap (s : State) :
    (resetUnit s).srcCap = s.srcCap := rfl
@[simp] theorem resetUnit_dstCap (s : State) :
    (resetUnit s).dstCap = s.dstCap := rfl
@[simp] theorem resetUnit_results (s : State) :
    (resetUnit s).results = s.results := rfl
@[simp] theorem resetUnit_pending (s : State) :
    (resetUnit s).pending = s.pending := rfl
@[simp] theorem resetUnit_response (s : State) :
    (resetUnit s).response = some ⟨true, 0#32⟩ := rfl
@[simp] theorem resetUnit_freeTick (s : State) :
    (resetUnit s).freeTick = s.freeTick + 1 := rfl

/-! ### updates that are instances of the ones above -/

@[simp] theorem setKind_eq (v : Kind) (s : State) :
    setKind v s = setResults { s.results with kind := v } s := rfl
@[simp] theorem setAcode_eq (v : BitVec 3) (s : State) :
    setAcode v s = setResults { s.results with acode := v } s := rfl
@[simp] theorem setCcode_eq (v : BitVec 2) (s : State) :
    setCcode v s = setResults { s.results with ccode := v } s := rfl
@[simp] theorem setAlpha_eq (v : Byte) (s : State) :
    setAlpha v s = setResults { s.results with alpha := v } s := rfl
@[simp] theorem setRgb_eq (v : Rgb) (s : State) :
    setRgb v s = setResults { s.results with rgb := v } s := rfl
@[simp] theorem setPixel_eq (v : Pixel) (s : State) :
    setPixel v s = setResults { s.results with pixel := v } s := rfl
@[simp] theorem setTile_eq (v : List Pixel) (s : State) :
    setTile v s = setResults { s.results with tile := v } s := rfl
@[simp] theorem setD_eq (v : BitVec 64) (s : State) :
    setD v s = setResults { s.results with d := v } s := rfl
@[simp] theorem setChan_eq (v : Byte) (s : State) :
    setChan v s = setResults { s.results with chan := v } s := rfl
@[simp] theorem raisePlain_eq (c : Cause) (s : State) : raisePlain c s = raise c 0#32 0#32 s := rfl

end Sys2Proof.Machine
end

