-- ==== Sys2Proof/Laws/Ops.lean ====
section
/-! SUPPORT. Once for each shared operation: everything it can do. -/

namespace Sys2Proof.Machine

/-! ### Reads of SRC -/

/-- MemRead(SRC, off, n) answers only inside SRC, with the listed bytes. -/
theorem memReadSrc_ok {src : Memory} {len off n : Nat} {bs : List Byte} (h : memReadSrc src len off n = .ok bs) :
    off + n ≤ len ∧ readBytes src off n = .ok bs := by
  simp only [memReadSrc] at h
  split at h
  · exact ⟨‹_›, h⟩
  · cases h

/-- Where SRC lists every offset below its length, a read inside it answers. -/
theorem memReadSrc_inside {src : Memory} {len off n : Nat} (h : off + n ≤ len)
    (hl : ∀ a, a < len → (Memory.read src a).isSome = true) :
    ∃ bs, memReadSrc src len off n = .ok bs ∧ bs.length = n ∧
      ∀ k (hk : k < bs.length), Memory.read src (off + k) = some bs[k] := by
  obtain ⟨bs, hbs, rest⟩ := readBytes_listed src off n (fun x _ hx => hl x (by omega))
  exact ⟨bs, by rw [memReadSrc, if_pos h, hbs], rest⟩

/-! ### Writes of DST -/

/-- MemWrite(DST, p, pixel) answers only inside the capacity, with the pixel's four bytes written. -/
theorem memWriteDst_ok {cap : Option Nat} {m m' : Memory} {p : Nat} {px : Pixel}
    (h : memWriteDst cap m p px = .ok m') : beyondCap cap (p + 1) = false ∧ m' = writePixel m p px := by
  simp only [memWriteDst] at h
  split at h
  · cases h
  · injection h with h
    exact ⟨Bool.not_eq_true _ ▸ ‹_›, h.symm⟩

/-- TEXEL.PUT writes a pixel inside the image and the capacity, or drops it. -/
theorem putTexel_ok {cap : Option Nat} {w h x y : Nat} {px : Pixel} {m m' : Memory}
    (hp : putTexel cap w h x y px m = .ok m') :
    (inside w h x y = false ∧ m' = m) ∨
    (inside w h x y = true ∧ beyondCap cap (pixelNumber w x y + 1) = false ∧
      m' = writePixel m (pixelNumber w x y) px) := by
  simp only [putTexel] at hp
  split at hp
  · exact .inr ⟨‹_›, memWriteDst_ok hp⟩
  · injection hp with hp
    exact .inl ⟨Bool.not_eq_true _ ▸ ‹_›, hp.symm⟩

theorem pixelNumber_lt {w h x y : Nat} (hi : inside w h x y = true) : pixelNumber w x y < w * h := by
  simp only [inside, Bool.and_eq_true, decide_eq_true_eq] at hi
  calc y * w + x < y * w + w := by omega
    _ = (y + 1) * w := by rw [Nat.add_mul, Nat.one_mul]
    _ ≤ h * w := Nat.mul_le_mul_right w hi.2
    _ = w * h := Nat.mul_comm h w

theorem beyondCap_mono {cap : Option Nat} {m n : Nat} (h : beyondCap cap n = false) (hm : m ≤ n) :
    beyondCap cap m = false := by
  cases cap with
  | none => rfl
  | some c => simp only [beyondCap, decide_eq_false_iff_not, Nat.not_lt] at h ⊢; omega

/-! ### The BC3 loop -/

/-- What any number of texels put into DST keep, for an image of `w` by `h` pixels: the canonical form, every byte that
was listed, every byte outside the image, and the capacity. -/
structure PutKeeps (cap : Option Nat) (w h : Nat) (m m' : Memory) : Prop where
  wf : Memory.wf m → Memory.wf m'
  listed : ∀ a, (Memory.read m a).isSome = true → (Memory.read m' a).isSome = true
  outside : ∀ a, w * h ≤ a / 4 → Memory.read m' a = Memory.read m a
  capped : ∀ a, (Memory.read m' a).isSome = true →
    (Memory.read m a).isSome = true ∨ beyondCap cap (a / 4 + 1) = false

theorem PutKeeps.refl (cap : Option Nat) (w h : Nat) (m : Memory) : PutKeeps cap w h m m :=
  ⟨id, fun _ => id, fun _ _ => rfl, fun _ => .inl⟩

theorem PutKeeps.trans {cap : Option Nat} {w h : Nat} {m m' m'' : Memory}
    (h1 : PutKeeps cap w h m m') (h2 : PutKeeps cap w h m' m'') : PutKeeps cap w h m m'' :=
  ⟨h2.wf ∘ h1.wf, fun a => h2.listed a ∘ h1.listed a,
    fun a ha => (h2.outside a ha).trans (h1.outside a ha),
    fun a ha => (h2.capped a ha).elim (h1.capped a) .inr⟩

theorem putTexel_keeps {cap : Option Nat} {w h x y : Nat} {px : Pixel} {m m' : Memory}
    (hp : putTexel cap w h x y px m = .ok m') : PutKeeps cap w h m m' := by
  rcases putTexel_ok hp with ⟨_, rfl⟩ | ⟨hi, hc, rfl⟩
  · exact PutKeeps.refl cap w h m'
  · have hlt := pixelNumber_lt hi
    refine ⟨wf_writePixel _ _ _, fun a ha => (read_writePixel_isSome _ _ _ _).mpr (.inr ha),
      fun a ha => read_writePixel_other _ _ _ _ (by omega), fun a ha => ?_⟩
    rcases (read_writePixel_isSome _ _ _ _).mp ha with hp' | ha
    · exact .inr (hp' ▸ hc)
    · exact .inl ha

theorem imageTexel_ok {cap : Option Nat} {w h : Nat} {k k' : Work} {t : Nat} (hk : imageTexel cap w h k t = .ok k') :
    ∃ m, putTexel cap w h (4 * k.cursor.blockX + t % 4) (4 * k.cursor.blockY + t / 4)
        (texelOf k.latches (4 * (t / 4) + t % 4)) k.dst = .ok m ∧
      k' = { k with cursor := { k.cursor with texelI := t % 4, texelJ := t / 4 }, dst := m } := by
  simp only [imageTexel] at hk
  split at hk
  · cases hk
  · injection hk with hk
    exact ⟨_, ‹_›, hk.symm⟩

theorem imageTexels_keeps {cap : Option Nat} {w h : Nat} (ts : List Nat) {k k' : Work}
    (hk : imageTexels cap w h ts k = .ok k') : PutKeeps cap w h k.dst k'.dst := by
  induction ts generalizing k with
  | nil =>
    injection hk with hk
    subst hk
    exact PutKeeps.refl cap w h k.dst
  | cons t ts ih =>
    simp only [imageTexels] at hk
    split at hk
    · cases hk
    · obtain ⟨m, hm, rfl⟩ := imageTexel_ok ‹_›
      exact (putTexel_keeps hm).trans (ih hk)

theorem imageBlock_ok {s : State} {w h : Nat} {k k' : Work} {bx byy : Nat} (hk : imageBlock s w h k bx byy = .ok k') :
    ∃ bytes, memReadSrc s.src s.srcLen (blockOffset (blockCount w) ⟨bx, byy, 0, 0⟩) Config.blockBytes = .ok bytes ∧
      imageTexels s.dstCap w h (List.range 16)
        { k with cursor := ⟨bx, byy, 0, 0⟩, latches := parseBlock (BitVec.ofNat 128 (leNat bytes)) } = .ok k' := by
  simp only [imageBlock] at hk
  split at hk
  · cases hk
  · exact ⟨_, ‹_›, hk⟩

theorem imageBlocks_keeps {s : State} {w h : Nat} (bs : List (Nat × Nat)) {k k' : Work}
    (hk : imageBlocks s w h bs k = .ok k') : PutKeeps s.dstCap w h k.dst k'.dst := by
  induction bs generalizing k with
  | nil =>
    injection hk with hk
    subst hk
    exact PutKeeps.refl s.dstCap w h k.dst
  | cons b bs ih =>
    obtain ⟨bx, byy⟩ := b
    simp only [imageBlocks] at hk
    split at hk
    · cases hk
    · obtain ⟨bytes, _, hts⟩ := imageBlock_ok ‹_›
      exact (imageTexels_keeps _ hts).trans (ih hk)

/-- Everything BC3.IMAGE's loop can do to the state: DST as the blocks leave it, latches and cursor free. -/
theorem imageRun_ok {w h : Nat} {s s' : State} (hr : imageRun w h s = .ok s') :
    ∃ k, imageBlocks s w h (rowMajor (blockCount w) (blockCount h)) ⟨s.latches, ⟨0, 0, 0, 0⟩, s.dst⟩ = .ok k ∧
      s' = { s with dst := k.dst, latches := freeLatches s, cursor := freeCursor s, freeTick := s.freeTick + 1 } ∧
      PutKeeps s.dstCap w h s.dst s'.dst := by
  simp only [imageRun] at hr
  split at hr
  · cases hr
  · injection hr with hr
    subst hr
    exact ⟨_, ‹_›, rfl, imageBlocks_keeps _ ‹_›⟩

/-- BC3.IMAGE's checks pass exactly where SRC is long enough and DST large enough. -/
theorem imageCheck_none {w h : Nat} {s : State} :
    imageCheck w h s = none ↔ bc3Need w h ≤ s.srcLen ∧ beyondCap s.dstCap (w * h) = false := by
  simp only [imageCheck]
  split
  · simp; omega
  · split <;> simp_all

/-! ### The RAW path -/

/-- UNP.CHECK passes exactly where the flags are there, the bit count is legal and SRC is long enough. -/
theorem rawCheck_none {w h g n : Word} {len : Nat} :
    rawCheck w h g n len = none ↔
      g &&& Config.requiredFlags = Config.requiredFlags ∧ n.toNat ∈ [8, 16, 32, 64] ∧
      rawPitch w.toNat n.toNat * h.toNat ≤ len := by
  by_cases hg : g &&& Config.requiredFlags = Config.requiredFlags
  · by_cases hn : n.toNat ∈ [8, 16, 32, 64]
    · by_cases hl : len < rawPitch w.toNat n.toNat * h.toNat
      · simp [rawCheck, Config.bitCounts, hg, hn, hl]
      · simp [rawCheck, Config.bitCounts, hg, hn, hl]
        omega
    · simp [rawCheck, Config.bitCounts, hg, hn]
  · simp [rawCheck, hg]

/-- UNP.CHECK raises nothing but the two errors of the RAW path. -/
theorem rawCheck_some {w h g n : Word} {len : Nat} {c : Cause} (hc : rawCheck w h g n len = some c) :
    c = .unsupportedFormatError ∨ c = .ioError := by
  simp only [rawCheck] at hc
  split at hc
  · simp_all
  · split at hc
    · simp_all
    · split at hc <;> simp_all

/-- A fetch answers with the little-endian value of bytes inside SRC. -/
theorem fetchPixel_ok {s : State} {bits x y : Nat} {d : BitVec 64} (h : fetchPixel s bits x y = .ok d) :
    ∃ bytes, memReadSrc s.src s.srcLen (rawOffset s.cfg.width.toNat bits x y) (rawStride bits) = .ok bytes ∧
      d = BitVec.ofNat 64 (leNat bytes) := by
  simp only [fetchPixel] at h
  split at h
  · cases h
  · injection h with h
    exact ⟨_, ‹_›, h.symm⟩

theorem rawPixel_ok {s : State} {x y : Nat} {px : Pixel} (h : rawPixel s x y = .ok px) :
    ∃ d, fetchPixel s s.cfg.rgbBitCount.toNat x y = .ok d ∧ px = unpackPixel s.cfg d := by
  simp only [rawPixel] at h
  split at h
  · cases h
  · injection h with h
    exact ⟨_, ‹_›, h.symm⟩

/-! ### Paths and results -/

/-- The RAW path raises the first error of UNP.CHECK or makes a lazy surface. -/
theorem rawPath_cases (s : State) :
    (∃ c, rawCheck s.cfg.width s.cfg.height s.cfg.pfFlags s.cfg.rgbBitCount s.srcLen = some c ∧
      rawPath s = raise c s.cfg.pfFlags s.cfg.rgbBitCount s) ∨
    (rawCheck s.cfg.width s.cfg.height s.cfg.pfFlags s.cfg.rgbBitCount s.srcLen = none ∧
      rawPath s = becomeReady surfLazy s) := by
  simp only [rawPath]
  split
  · exact .inl ⟨_, ‹_›, rfl⟩
  · exact .inr ⟨‹_›, rfl⟩

/-- The BC3 path, where it answers, raises a failed check or makes a materialised surface from the loop's result. -/
theorem bc3Path_next {s t : State} (h : bc3Path s = .next t) :
    (∃ c, imageCheck s.cfg.width.toNat s.cfg.height.toNat s = some c ∧ t = raisePlain c s) ∨
    (imageCheck s.cfg.width.toNat s.cfg.height.toNat s = none ∧
      ∃ s', imageRun s.cfg.width.toNat s.cfg.height.toNat s = .ok s' ∧ t = becomeReady surfMaterialised s') := by
  simp only [bc3Path] at h
  split at h
  · injection h with h
    exact .inl ⟨_, ‹_›, h.symm⟩
  · split at h
    · cases h
    · injection h with h
      exact .inr ⟨‹_›, _, ‹_›, h.symm⟩

theorem finish_next {α : Type} {r : Except Fault α} {put : α → State → State} {s t : State}
    (h : finish r put s = .next t) : ∃ v, r = .ok v ∧ t = put v s := by
  cases r with
  | error f => cases h
  | ok v =>
    injection h with h
    exact ⟨v, rfl, h.symm⟩

end Sys2Proof.Machine
end

