-- ==== Sys2Proof/Laws/PerInstr.lean ====
section
/-! SUPPORT. Statements made per instruction, one lemma per constructor: how long an encoding is. -/

namespace Sys2Proof.Laws.EncodeLength

/-- A well-formed instruction encodes to the number of bytes its port has, and a LOADSRC payload after them. -/
def Statement (i : Instr) : Prop :=
  Instr.wellFormed i = true →
    (encode i).bytes.length = portBytes (encode i).port +
      (match i with | .loadsrc n _ => n.toNat | _ => 0)

theorem ofWordAt (i : Instr) (p : Port) (v : Nat) (he : encode i = wordAt p v)
    (hl : ∀ n q, i ≠ .loadsrc n q) : Statement i := by
  intro _
  rw [he]
  cases i <;> first | exact absurd rfl (hl _ _) | simp [wordAt]

theorem ofCommand (i : Instr) (c : Nat) (a0 a1 : Word) (he : encode i = commandWord c a0 a1 [])
    (hl : ∀ n q, i ≠ .loadsrc n q) : Statement i := by
  intro _
  rw [he]
  cases i <;> first | exact absurd rfl (hl _ _) | simp [commandWord, portBytes]

theorem reset : Statement .reset :=
  ofCommand _ _ _ _ rfl (fun _ _ h => by cases h)

theorem wrcfg (a0 a1 : Word) : Statement (.wrcfg a0 a1) :=
  ofCommand _ _ _ _ rfl (fun _ _ h => by cases h)

theorem rdreg (a0 : Word) : Statement (.rdreg a0) :=
  ofCommand _ _ _ _ rfl (fun _ _ h => by cases h)

theorem loadsrc (n : Word) (payload : List Byte) : Statement (.loadsrc n payload) := by
  intro h
  have hp : payload.length = n.toNat := by simpa [Instr.wellFormed] using h
  simp [encode, commandWord, portBytes, hp]

theorem decode : Statement .decode :=
  ofCommand _ _ _ _ rfl (fun _ _ h => by cases h)

theorem atXY (x y : Word) : Statement (.atXY x y) :=
  ofCommand _ _ _ _ rfl (fun _ _ h => by cases h)

theorem rddst (k : Word) : Statement (.rddst k) :=
  ofCommand _ _ _ _ rfl (fun _ _ h => by cases h)

theorem release : Statement .release :=
  ofCommand _ _ _ _ rfl (fun _ _ h => by cases h)

theorem reservedCmd (cmd : BitVec 4) : Statement (.reservedCmd cmd) :=
  ofCommand _ _ _ _ rfl (fun _ _ h => by cases h)

theorem kindNone : Statement .kindNone :=
  ofWordAt _ _ _ rfl (fun _ _ h => by cases h)

theorem kindBc1 : Statement .kindBc1 :=
  ofWordAt _ _ _ rfl (fun _ _ h => by cases h)

theorem kindBc3 : Statement .kindBc3 :=
  ofWordAt _ _ _ rfl (fun _ _ h => by cases h)

theorem kindUnsupported (f : Word) : Statement (.kindUnsupported f) :=
  ofWordAt _ _ _ rfl (fun _ _ h => by cases h)

theorem bc3Block (v : BitVec 128) : Statement (.bc3Block v) :=
  ofWordAt _ _ _ rfl (fun _ _ h => by cases h)

theorem aEnd0 : Statement .aEnd0 :=
  ofWordAt _ _ _ rfl (fun _ _ h => by cases h)

theorem aEnd1 : Statement .aEnd1 :=
  ofWordAt _ _ _ rfl (fun _ _ h => by cases h)

theorem a7Lerp2 : Statement .a7Lerp2 :=
  ofWordAt _ _ _ rfl (fun _ _ h => by cases h)

theorem a7Lerp3 : Statement .a7Lerp3 :=
  ofWordAt _ _ _ rfl (fun _ _ h => by cases h)

theorem a7Lerp4 : Statement .a7Lerp4 :=
  ofWordAt _ _ _ rfl (fun _ _ h => by cases h)

theorem a7Lerp5 : Statement .a7Lerp5 :=
  ofWordAt _ _ _ rfl (fun _ _ h => by cases h)

theorem a7Lerp6 : Statement .a7Lerp6 :=
  ofWordAt _ _ _ rfl (fun _ _ h => by cases h)

theorem a7Lerp7 : Statement .a7Lerp7 :=
  ofWordAt _ _ _ rfl (fun _ _ h => by cases h)

theorem a5Lerp2 : Statement .a5Lerp2 :=
  ofWordAt _ _ _ rfl (fun _ _ h => by cases h)

theorem a5Lerp3 : Statement .a5Lerp3 :=
  ofWordAt _ _ _ rfl (fun _ _ h => by cases h)

theorem a5Lerp4 : Statement .a5Lerp4 :=
  ofWordAt _ _ _ rfl (fun _ _ h => by cases h)

theorem a5Lerp5 : Statement .a5Lerp5 :=
  ofWordAt _ _ _ rfl (fun _ _ h => by cases h)

theorem a5Zero : Statement .a5Zero :=
  ofWordAt _ _ _ rfl (fun _ _ h => by cases h)

theorem a5Max : Statement .a5Max :=
  ofWordAt _ _ _ rfl (fun _ _ h => by cases h)

theorem cEnd0 : Statement .cEnd0 :=
  ofWordAt _ _ _ rfl (fun _ _ h => by cases h)

theorem cEnd1 : Statement .cEnd1 :=
  ofWordAt _ _ _ rfl (fun _ _ h => by cases h)

theorem cMix21 : Statement .cMix21 :=
  ofWordAt _ _ _ rfl (fun _ _ h => by cases h)

theorem cMix12 : Statement .cMix12 :=
  ofWordAt _ _ _ rfl (fun _ _ h => by cases h)

theorem cExp565 (c : BitVec 16) : Statement (.cExp565 c) :=
  ofWordAt _ _ _ rfl (fun _ _ h => by cases h)

theorem unpFetch8 (x y : Word) : Statement (.unpFetch8 x y) :=
  ofWordAt _ _ _ rfl (fun _ _ h => by cases h)

theorem unpFetch16 (x y : Word) : Statement (.unpFetch16 x y) :=
  ofWordAt _ _ _ rfl (fun _ _ h => by cases h)

theorem unpFetch32 (x y : Word) : Statement (.unpFetch32 x y) :=
  ofWordAt _ _ _ rfl (fun _ _ h => by cases h)

theorem unpFetch64 (x y : Word) : Statement (.unpFetch64 x y) :=
  ofWordAt _ _ _ rfl (fun _ _ h => by cases h)

theorem unpBadbits (n : Word) : Statement (.unpBadbits n) :=
  ofWordAt _ _ _ rfl (fun _ _ h => by cases h)

theorem kindDecode (f : Word) : Statement (.kindDecode f) :=
  ofWordAt _ _ _ rfl (fun _ _ h => by cases h)

theorem blkParse (v : BitVec 128) : Statement (.blkParse v) :=
  ofWordAt _ _ _ rfl (fun _ _ h => by cases h)

theorem aSel (t : BitVec 4) : Statement (.aSel t) :=
  ofWordAt _ _ _ rfl (fun _ _ h => by cases h)

theorem cSel (t : BitVec 4) : Statement (.cSel t) :=
  ofWordAt _ _ _ rfl (fun _ _ h => by cases h)

theorem bc3Texel (t : BitVec 4) : Statement (.bc3Texel t) :=
  ofWordAt _ _ _ rfl (fun _ _ h => by cases h)

theorem texelPut (x y p : Word) : Statement (.texelPut x y p) :=
  ofWordAt _ _ _ rfl (fun _ _ h => by cases h)

theorem bc3Image (w h : Word) : Statement (.bc3Image w h) :=
  ofWordAt _ _ _ rfl (fun _ _ h => by cases h)

theorem unpCheck (w h g n : Word) : Statement (.unpCheck w h g n) :=
  ofWordAt _ _ _ rfl (fun _ _ h => by cases h)

theorem unpChan (d : BitVec 64) (m : Word) : Statement (.unpChan d m) :=
  ofWordAt _ _ _ rfl (fun _ _ h => by cases h)

theorem unpPixel (x y : Word) : Statement (.unpPixel x y) :=
  ofWordAt _ _ _ rfl (fun _ _ h => by cases h)

end Sys2Proof.Laws.EncodeLength
end

