-- ==== Sys2Proof/Laws/Status.lean ====
section
/-! SUPPORT. The fields of STATUS after each way of writing it. -/

namespace Sys2Proof.Machine

theorem getLsbD_setOutcome (st surf : BitVec 2) (err : BitVec 4) (w : Word) (i : Nat) :
    (setOutcome st surf err w).getLsbD i =
      if i < 2 then st.getLsbD i else if i < 4 then surf.getLsbD (i - 2)
      else if i < 8 then err.getLsbD (i - 4) else w.getLsbD i := by
  have outer : (setOutcome st surf err w).getLsbD i =
      if i < 8 then (err ++ surf ++ st).getLsbD i else (w.extractLsb' 8 24).getLsbD (i - 8) :=
    BitVec.getLsbD_append
  have inner : (err ++ surf ++ st).getLsbD i =
      if i < 2 then st.getLsbD i else (err ++ surf).getLsbD (i - 2) := BitVec.getLsbD_append
  rw [outer, inner, BitVec.getLsbD_append, BitVec.getLsbD_extractLsb']
  by_cases h2 : i < 2
  · simp [h2, show i < 8 by omega]
  by_cases h4 : i < 4
  · simp [h2, h4, show i < 8 by omega, show i - 2 < 2 by omega]
  by_cases h8 : i < 8
  · simp [h2, h4, h8, show ¬ i - 2 < 2 by omega, show i - 2 - 2 = i - 4 by omega]
  · simp only [h2, h4, h8, if_false, show 8 + (i - 8) = i by omega]
    by_cases h32 : i < 32
    · simp [show i - 8 < 24 by omega]
    · simp [BitVec.getLsbD_of_ge w i (by omega)]

@[simp] theorem statusState_setOutcome (st surf : BitVec 2) (err : BitVec 4) (w : Word) :
    statusState (setOutcome st surf err w) = st := by
  ext i hi
  simp [statusState, getLsbD_setOutcome, hi, BitVec.getLsbD_eq_getElem]

@[simp] theorem statusSurf_setOutcome (st surf : BitVec 2) (err : BitVec 4) (w : Word) :
    statusSurf (setOutcome st surf err w) = surf := by
  ext i hi
  simp [statusSurf, getLsbD_setOutcome, show ¬ 2 + i < 2 by omega, show 2 + i < 4 by omega, hi,
    BitVec.getLsbD_eq_getElem]

@[simp] theorem statusErr_setOutcome (st surf : BitVec 2) (err : BitVec 4) (w : Word) :
    statusErr (setOutcome st surf err w) = err := by
  ext i hi
  simp [statusErr, getLsbD_setOutcome, show ¬ 4 + i < 2 by omega, show 4 + i < 8 by omega, hi,
    BitVec.getLsbD_eq_getElem]

@[simp] theorem statusProto_setOutcome (st surf : BitVec 2) (err : BitVec 4) (w : Word) :
    statusProto (setOutcome st surf err w) = statusProto w := by
  exact getLsbD_setOutcome st surf err w 8

@[simp] theorem high_setOutcome (st surf : BitVec 2) (err : BitVec 4) (w : Word) :
    (setOutcome st surf err w).extractLsb' 9 23 = w.extractLsb' 9 23 := by
  ext i hi
  simp [getLsbD_setOutcome, show ¬ 9 + i < 2 by omega, show ¬ 9 + i < 4 by omega, show ¬ 9 + i < 8 by omega]

theorem getLsbD_setProto (w : Word) (i : Nat) : (setProto w).getLsbD i = (w.getLsbD i || decide (i = 8)) := by
  have h : (0x100#32).getLsbD i = decide (i = 8) := by
    by_cases hi : i < 32
    · revert i; decide
    · have h8 : i ≠ 8 := by omega
      simp [h8, BitVec.getLsbD_of_ge _ _ (Nat.le_of_not_lt hi)]
  simp only [setProto, BitVec.getLsbD_or, h]

@[simp] theorem statusState_setProto (w : Word) : statusState (setProto w) = statusState w := by
  ext i hi
  simp [statusState, getLsbD_setProto, show i ≠ 8 by omega]

@[simp] theorem statusSurf_setProto (w : Word) : statusSurf (setProto w) = statusSurf w := by
  ext i hi
  simp [statusSurf, getLsbD_setProto, show 2 + i ≠ 8 by omega]

@[simp] theorem statusErr_setProto (w : Word) : statusErr (setProto w) = statusErr w := by
  ext i hi
  simp [statusErr, getLsbD_setProto, show 4 + i ≠ 8 by omega]

@[simp] theorem statusProto_setProto (w : Word) : statusProto (setProto w) = true := by
  simp [statusProto, getLsbD_setProto]

@[simp] theorem high_setProto (w : Word) : (setProto w).extractLsb' 9 23 = w.extractLsb' 9 23 := by
  ext i hi
  simp [getLsbD_setProto, show 9 + i ≠ 8 by omega]

end Sys2Proof.Machine
end

