-- ==== Sys2Proof/Tests/Slice0.lean ====
section
/-! SUPPORT. Small tests, each of one word or one step, with results taken from the spec's own tables; and for each
statement with hypotheses a witness: a concrete state and operands that meet them. -/

namespace Sys2Proof.Tests

open Sys2Proof Sys2Proof.Machine

/-! ### States and readings the tests use -/

/-- Block EX of 95_test_vectors.md. -/
def exBlock : List Byte :=
  [0xFF, 0x00, 0x88, 0xC6, 0xFA, 0x88, 0xC6, 0xFA, 0x00, 0xF8, 0xE0, 0x07, 0xE4, 0xE4, 0x1B, 0x1B]

/-- Block B10 of 95_test_vectors.md. -/
def b10Block : List Byte :=
  [0x20, 0xE0, 0x48, 0x82, 0x24, 0x48, 0x82, 0x24, 0xE0, 0x07, 0x1F, 0xF8, 0x54, 0x54, 0x54, 0x54]

/-- A block as the 128-bit operand. -/
def blockValue (bs : List Byte) : BitVec 128 := BitVec.ofNat 128 (leNat bs)

/-- IDLE, set up for a BC3 image of `w` by `h` pixels with the given SRC. -/
def idleBc3 (w h : Word) (bs : List Byte) : State :=
  { State.reset with
    cfg := { CfgRegs.zero with width := w, height := h, fourcc := 0x35545844#32 }
    src := Memory.ofBytes 0 bs, srcLen := bs.length }

/-- IDLE, set up for a RAW image with the masks of V40 or V41. -/
def idleRaw (w h bits rm gm bm am : Word) (bs : List Byte) : State :=
  { State.reset with
    cfg := ⟨w, h, 0#32, 0x41#32, bits, rm, gm, bm, am⟩
    src := Memory.ofBytes 0 bs, srcLen := bs.length }

/-- READY with a materialised surface of one pixel: the first texel of EX. -/
def readyBc3 : State :=
  { idleBc3 1#32 1#32 exBlock with status := 0x05#32, dst := Memory.ofBytes 0 [0xFF, 0x00, 0x00, 0xFF] }

/-- READY with a lazy surface: V40's pixel. -/
def readyLazy : State :=
  { idleRaw 1#32 1#32 32#32 0x00FF0000#32 0x0000FF00#32 0x000000FF#32 0xFF000000#32 [0x10, 0x20, 0x30, 0x40] with
    status := 0x09#32 }

/-- ERROR after a DecodeError. -/
def errorState : State := { State.reset with status := 0x42#32 }

/-- A state with the given alpha endpoints. -/
def withAlpha (a0 a1 : Byte) : State :=
  { State.reset with latches := { Latches.zero with a0 := a0, a1 := a1 } }

/-- A state with the given colour endpoints. -/
def withColour (c0 c1 : BitVec 16) : State :=
  { State.reset with latches := { Latches.zero with c0 := c0, c1 := c1 } }

/-- A state with the given alpha index table. -/
def withTable (alo : BitVec 16) (ahi : Word) : State :=
  { State.reset with latches := { Latches.zero with alo := alo, ahi := ahi } }

/-- A reading of the next state, where there is one. -/
def after {α : Type} (f : State → α) (o : Host.Outcome State Fault Refusal) : Option α :=
  match o with
  | .next t => some (f t)
  | _ => none

theorem next_of_after {α : Type} {f : State → α} {o : Host.Outcome State Fault Refusal} {v : α}
    (h : after f o = some v) : ∃ t, o = .next t ∧ f t = v := by
  cases o with
  | next t => exact ⟨t, rfl, by injection h⟩
  | _ => cases h

/-! ### Well-formedness: an ill-formed term for each check -/

theorem test_loadsrc_short_payload_refused : Instr.wellFormed (.loadsrc 2#32 [0xAA]) = false := by decide
theorem test_reservedCmd_code7_refused : Instr.wellFormed (.reservedCmd 7#4) = false := by decide
theorem test_kindUnsupported_dxt5_refused : Instr.wellFormed (.kindUnsupported 0x35545844#32) = false := by decide
theorem test_unpBadbits_32_refused : Instr.wellFormed (.unpBadbits 32#32) = false := by decide

/-! ### Decoding: every constructor from a word written out from 30_encoding.md -/

/-- Command words of 95_test_vectors.md P1 and V72, least significant byte first. -/
theorem test_decode_commands :
    decode ⟨.command, [0, 0, 0, 0, 0, 0, 0, 0, 0x00]⟩ = .ok .reset ∧
    decode ⟨.command, [0x44, 0x58, 0x54, 0x35, 0x02, 0, 0, 0, 0x01]⟩ = .ok (.wrcfg 2#32 0x35545844#32) ∧
    decode ⟨.command, [0, 0, 0, 0, 0x09, 0, 0, 0, 0x02]⟩ = .ok (.rdreg 9#32) ∧
    decode ⟨.command, [0, 0, 0, 0, 0x01, 0, 0, 0, 0x03, 0xAB]⟩ = .ok (.loadsrc 1#32 [0xAB]) ∧
    decode ⟨.command, [0, 0, 0, 0, 0, 0, 0, 0, 0x04]⟩ = .ok .decode ∧
    decode ⟨.command, [0x03, 0, 0, 0, 0x02, 0, 0, 0, 0x05]⟩ = .ok (.atXY 2#32 3#32) ∧
    decode ⟨.command, [0, 0, 0, 0, 0x3F, 0, 0, 0, 0x06]⟩ = .ok (.rddst 63#32) ∧
    decode ⟨.command, [0, 0, 0, 0, 0, 0, 0, 0, 0x07]⟩ = .ok .release ∧
    decode ⟨.command, [0, 0, 0, 0, 0, 0, 0, 0, 0x08]⟩ = .ok (.reservedCmd 8#4) ∧
    decode ⟨.command, [0, 0, 0, 0, 0, 0, 0, 0, 0x0F]⟩ = .ok (.reservedCmd 15#4) := by
  refine ⟨?_, ?_, ?_, ?_, ?_, ?_, ?_, ?_, ?_, ?_⟩ <;> rfl

/-- V1 to V4: tags in file order. -/
theorem test_decode_tags :
    decode ⟨.tag, [0x00, 0x00, 0x00, 0x00]⟩ = .ok .kindNone ∧
    decode ⟨.tag, [0x44, 0x58, 0x54, 0x31]⟩ = .ok .kindBc1 ∧
    decode ⟨.tag, [0x44, 0x58, 0x54, 0x35]⟩ = .ok .kindBc3 ∧
    decode ⟨.tag, [0x44, 0x58, 0x54, 0x33]⟩ = .ok (.kindUnsupported 0x33545844#32) ∧
    decode ⟨.kindDecode, [0x64, 0x78, 0x74, 0x35]⟩ = .ok (.kindDecode 0x35747864#32) := by
  refine ⟨?_, ?_, ?_, ?_, ?_⟩ <;> rfl

/-- The sixteen selectors `MODE7 ++ code` of 30_encoding.md R70. -/
theorem test_decode_alpha_selectors :
    [0b0000, 0b0001, 0b0010, 0b0011, 0b0100, 0b0101, 0b0110, 0b0111,
      0b1000, 0b1001, 0b1010, 0b1011, 0b1100, 0b1101, 0b1110, 0b1111].map (fun b => decode ⟨.alphaSelector, [b]⟩) =
    [.ok .aEnd0, .ok .aEnd1, .ok .a5Lerp2, .ok .a5Lerp3, .ok .a5Lerp4, .ok .a5Lerp5, .ok .a5Zero, .ok .a5Max,
      .ok .aEnd0, .ok .aEnd1, .ok .a7Lerp2, .ok .a7Lerp3, .ok .a7Lerp4, .ok .a7Lerp5, .ok .a7Lerp6, .ok .a7Lerp7] := rfl

/-- The four colour codes of 30_encoding.md R71. -/
theorem test_decode_colour_codes :
    [0b00, 0b01, 0b10, 0b11].map (fun b => decode ⟨.colourCode, [b]⟩) =
    [.ok .cEnd0, .ok .cEnd1, .ok .cMix21, .ok .cMix12] := rfl

/-- The bit counts 8, 16, 32, 64 and 24, with x = 2 and y = 1. -/
theorem test_decode_bit_counts :
    [0x08, 0x10, 0x20, 0x40, 0x18].map (fun b => decode ⟨.bitCount, [b, 0, 0, 0, 2, 0, 0, 0, 1, 0, 0, 0]⟩) =
    [.ok (.unpFetch8 2#32 1#32), .ok (.unpFetch16 2#32 1#32), .ok (.unpFetch32 2#32 1#32),
      .ok (.unpFetch64 2#32 1#32), .ok (.unpBadbits 24#32)] := rfl

/-- The operand-only rows, fields placed as the table's encodings letter them. -/
theorem test_decode_operand_rows :
    decode ⟨.exp565, [0x34, 0x12]⟩ = .ok (.cExp565 0x1234#16) ∧
    decode ⟨.alphaSel, [0x05]⟩ = .ok (.aSel 5#4) ∧
    decode ⟨.colourSel, [0x0F]⟩ = .ok (.cSel 15#4) ∧
    decode ⟨.texel, [0x0A]⟩ = .ok (.bc3Texel 10#4) ∧
    decode ⟨.texelPut, [1, 0, 0, 0, 2, 0, 0, 0, 0x0D, 0x0C, 0x0B, 0x0A]⟩ = .ok (.texelPut 1#32 2#32 0x0A0B0C0D#32) ∧
    decode ⟨.image, [5, 0, 0, 0, 7, 0, 0, 0]⟩ = .ok (.bc3Image 5#32 7#32) ∧
    decode ⟨.unpCheck, [1, 0, 0, 0, 2, 0, 0, 0, 0x41, 0, 0, 0, 32, 0, 0, 0]⟩ =
      .ok (.unpCheck 1#32 2#32 0x41#32 32#32) ∧
    decode ⟨.unpChan, [0x10, 0x20, 0x30, 0x40, 0, 0, 0, 0x80, 0, 0, 0xFF, 0]⟩ =
      .ok (.unpChan 0x8000000040302010#64 0x00FF0000#32) ∧
    decode ⟨.unpPixel, [2, 0, 0, 0, 1, 0, 0, 0]⟩ = .ok (.unpPixel 2#32 1#32) := by
  refine ⟨?_, ?_, ?_, ?_, ?_, ?_, ?_, ?_, ?_⟩ <;> rfl

/-- Both rows of format B, with EX written most significant byte first. -/
theorem test_decode_blocks :
    decode ⟨.block, exBlock⟩ = .ok (.bc3Block 0x1B1BE4E407E0F800FAC688FAC68800FF#128) ∧
    decode ⟨.parse, exBlock⟩ = .ok (.blkParse 0x1B1BE4E407E0F800FAC688FAC68800FF#128) := ⟨rfl, rfl⟩

/-- Bytes that are no encoding: a set padding bit, a missing payload byte, a byte too many. -/
theorem test_decode_rejects :
    decode ⟨.command, [0, 0, 0, 0, 0, 0, 0, 0, 0x10]⟩ = .error .paddingNotZero ∧
    decode ⟨.command, [0, 0, 0, 0, 0x02, 0, 0, 0, 0x03, 0xAA]⟩ = .error .wrongLength ∧
    decode ⟨.alphaSelector, [0x10]⟩ = .error .paddingNotZero ∧
    decode ⟨.tag, [0, 0, 0, 0, 0]⟩ = .error .wrongLength := ⟨rfl, rfl, rfl, rfl⟩

/-- Words of the opcode table as the host numbers them. -/
theorem test_table_words :
    decodeTableWord 72 0x10000000200000000 = some (.wrcfg 2#32 0#32) ∧
    decodeTableWord 72 0x30000000100000000 = some (.loadsrc 1#32 [0]) ∧
    decodeTableWord 32 0x35545844 = some .kindBc3 ∧
    decodeTableWord 8 0xA = some .a7Lerp2 ∧
    decodeTableWord 32 0x40 = some (.unpFetch64 0#32 0#32) := ⟨rfl, rfl, rfl, rfl, rfl⟩

/-- A table word is fetched and run by the very next step: RESERVED.CMD as the first command after reset (V72). -/
theorem test_step_runs_fetch_word :
    after State.status (step (State.reset.withFetchWord 72 0x90000000000000000)) = some 0x100#32 := by decide

/-! ### Reset -/

theorem test_reset_memory_wf : Memory.wf State.reset.src ∧ Memory.wf State.reset.dst := by decide

/-! ### Alpha (tables 2.2 and 2.3) -/

/-- V10 and V14: the codes of EX, and the code that lies across the two words. -/
theorem test_aSel_ex :
    (List.range 16).map (fun t => after (fun u => u.results.acode.toNat)
      (exec (.aSel (BitVec.ofNat 4 t)) (withTable 0xC688#16 0xFAC688FA#32))) =
    [0, 1, 2, 3, 4, 5, 6, 7, 0, 1, 2, 3, 4, 5, 6, 7].map some := by decide
theorem test_aSel_straddle :
    [4, 5, 6].map (fun t => after (fun u => u.results.acode.toNat)
      (exec (.aSel (BitVec.ofNat 4 t)) (withTable 0x8000#16 0x00000003#32))) = [some 0, some 7, some 0] := by decide

/-- V25: the 7-step table of 255 and 0. -/
theorem test_alpha_seven_step :
    [Instr.aEnd0, .aEnd1, .a7Lerp2, .a7Lerp3, .a7Lerp4, .a7Lerp5, .a7Lerp6, .a7Lerp7].map
      (fun i => after (fun u => u.results.alpha.toNat) (exec i (withAlpha 255#8 0#8))) =
    [255, 0, 218, 182, 145, 109, 72, 36].map some := by decide

/-- V30: the 5-step table of 50 and 100. -/
theorem test_alpha_five_step :
    [Instr.aEnd0, .aEnd1, .a5Lerp2, .a5Lerp3, .a5Lerp4, .a5Lerp5, .a5Zero, .a5Max].map
      (fun i => after (fun u => u.results.alpha.toNat) (exec i (withAlpha 50#8 100#8))) =
    [50, 100, 60, 70, 80, 90, 0, 255].map some := by decide

/-! ### Colour (tables 2.4 and 2.5) -/

theorem test_cExp565 :
    [0x1234#16, 0xABCD#16, 0x7BEF#16, 0xFFDF#16].map (fun c => after (fun u => u.results.rgb)
      (exec (.cExp565 c) State.reset)) =
    [⟨16, 69, 165⟩, ⟨173, 121, 107⟩, ⟨123, 125, 123⟩, ⟨255, 251, 255⟩].map some := by decide
theorem test_colour_mixes :
    [Instr.cEnd0, .cEnd1, .cMix21, .cMix12].map (fun i => after (fun u => u.results.rgb)
      (exec i (withColour 0x1234#16 0xABCD#16))) =
    [⟨16, 69, 165⟩, ⟨173, 121, 107⟩, ⟨68, 86, 145⟩, ⟨120, 103, 126⟩].map some := by decide
/-- EX: colour codes 0 1 2 3 / 0 1 2 3 / 3 2 1 0 / 3 2 1 0. -/
theorem test_cSel :
    [0, 3, 8, 15].map (fun t => after (fun u => u.results.ccode.toNat)
      (exec (.cSel (BitVec.ofNat 4 t)) { State.reset with latches := parseBlock (blockValue exBlock) })) =
    [some 0, some 3, some 3, some 0] := by decide

/-! ### Blocks (tables 2.6 and 2.7) -/

theorem test_blkParse :
    after State.latches (exec (.blkParse (blockValue exBlock)) State.reset) =
      some ⟨255#8, 0#8, 0xC688#16, 0xFAC688FA#32, 0xF800#16, 0x07E0#16, 0x1B1BE4E4#32⟩ := by decide
/-- V20, texel (1, 1): number 5. -/
theorem test_bc3Texel :
    after (fun u => u.results.pixel)
      (exec (.bc3Texel 5#4) { State.reset with latches := parseBlock (blockValue exBlock) }) =
      some ⟨0, 255, 0, 109⟩ := by decide
/-- V20, row 2 of the tile of EX. -/
theorem test_bc3Block :
    after (fun u => (u.results.tile.drop 8).take 4) (exec (.bc3Block (blockValue exBlock)) State.reset) =
      some [⟨85, 170, 0, 255⟩, ⟨170, 85, 0, 0⟩, ⟨0, 255, 0, 218⟩, ⟨255, 0, 0, 182⟩] := by decide
/-- A pixel inside a 2x2 image goes to bytes 12 to 15; an overhanging one changes nothing. -/
theorem test_texelPut :
    after State.dst (exec (.texelPut 1#32 1#32 0x04030201#32) (idleBc3 2#32 2#32 [])) =
      some [(12, 1), (13, 2), (14, 3), (15, 4)] ∧
    after State.dst (exec (.texelPut 2#32 1#32 0x04030201#32) (idleBc3 2#32 2#32 [])) = some [] := by decide
/-- V33, row 0, columns 3 to 5 of the image of EX and B10, 7 by 1 of it: the second block starts at column 4. -/
theorem test_bc3Image :
    after (fun u => ((u.dst.drop 12).take 12).map Prod.snd)
      (exec (.bc3Image 7#32 1#32) (idleBc3 7#32 1#32 (exBlock ++ b10Block))) =
      some [85, 170, 0, 182, 0, 255, 0, 32, 255, 0, 255, 224] := by decide +kernel

/-! ### The unpacker (table 2.8) -/

/-- V44 (16-bit channels, a zero mask) and V46 (a mask with a hole). -/
theorem test_unpChan :
    [0x0000FFFF#32, 0xFFFF0000#32, 0x00000000#32, 0xFF000000#32].map (fun m => after (fun u => u.results.chan.toNat)
      (exec (.unpChan 0xDEF09ABC56781234#64 m) State.reset)) = [some 52, some 120, some 0, some 86] ∧
    after (fun u => u.results.chan.toNat) (exec (.unpChan 0xFFFF#64 0xF0F0#32) State.reset) = some 15 := by decide

/-- V50: the pixels (2, 0) and (2, 1) of a 3 by 2 image of 16 bits. -/
def v50 : State :=
  idleRaw 3#32 2#32 16#32 0x0F00#32 0x00F0#32 0x000F#32 0xF000#32
    [0x01, 0x10, 0x02, 0x20, 0x03, 0x30, 0x04, 0x40, 0x05, 0x50, 0x06, 0x60]
theorem test_unpPixel_V50 :
    after (fun u => u.results.pixel) (exec (.unpPixel 2#32 0#32) v50) = some ⟨0, 0, 3, 3⟩ ∧
    after (fun u => u.results.pixel) (exec (.unpPixel 2#32 1#32) v50) = some ⟨0, 0, 6, 6⟩ := by decide

/-- V44's pixel in each width; a fetch that runs past SRC stops. -/
theorem test_unpFetch :
    [Instr.unpFetch8 0#32 0#32, .unpFetch16 0#32 0#32, .unpFetch32 0#32 0#32, .unpFetch64 0#32 0#32].map
      (fun i => after (fun u => u.results.d)
        (exec i (idleRaw 1#32 1#32 64#32 0 0 0 0 [0x34, 0x12, 0x78, 0x56, 0xBC, 0x9A, 0xF0, 0xDE]))) =
    [0x34#64, 0x1234#64, 0x56781234#64, 0xDEF09ABC56781234#64].map some := by decide
theorem test_unpFetch_past_source :
    exec (.unpFetch16 0#32 0#32) (idleRaw 1#32 1#32 16#32 0 0 0 0 [0x34]) = .fault (.srcOutOfRange 0 2) := rfl

/-- V52, V59 pass; V57 and a short SRC do not. -/
theorem test_unpCheck :
    after State.status (exec (.unpCheck 2#32 2#32 0x41#32 32#32) { State.reset with srcLen := 16 }) = some 0#32 ∧
    after State.status (exec (.unpCheck 2#32 2#32 0x41#32 24#32) { State.reset with srcLen := 16 }) = some 0x32#32 ∧
    after State.status (exec (.unpCheck 2#32 2#32 0x41#32 32#32) { State.reset with srcLen := 15 }) =
      some 0x12#32 := by decide
theorem test_unpBadbits :
    after (fun u => (u.status, u.errInfo0, u.errInfo1))
      (exec (.unpBadbits 24#32) { State.reset with cfg := { CfgRegs.zero with pfFlags := 0x41#32 } }) =
      some (0x32#32, 0x41#32, 24#32) := by decide

/-! ### The kind rows and DECODE (tables 2.1 and 2.10) -/

theorem test_kindDecode :
    [0x00000000#32, 0x31545844#32, 0x35545844#32, 0x44585435#32].map (fun f => after (fun u => u.results.kind)
      (exec (.kindDecode f) State.reset)) =
    [some Kind.none, some Kind.bc1, some Kind.bc3, some (Kind.unsupported 0x44585435#32)] := by decide
theorem test_kind_rows :
    after State.status (exec .kindBc1 State.reset) = some 0x82#32 ∧
    after State.status (exec (.kindUnsupported 1#32) State.reset) = some 0x32#32 ∧
    after State.status (exec .kindNone v50) = some 0x09#32 ∧
    after State.status (exec .kindBc3 (idleBc3 4#32 4#32 (exBlock.take 15))) = some 0x42#32 := by decide
/-- V60, V62 to V64, V61. -/
theorem test_decode_errors :
    after State.status (exec .decode State.reset) = some 0x92#32 ∧
    after State.status (exec .decode { State.reset with cfg :=
      { CfgRegs.zero with width := 4#32, height := 4#32, fourcc := 0x31545844#32 } }) = some 0x82#32 ∧
    after State.status (exec .decode (idleBc3 4#32 4#32 (exBlock.take 15))) = some 0x42#32 ∧
    after State.status (exec .decode { State.reset with cfg :=
      { CfgRegs.zero with height := 4#32, fourcc := 0x33545844#32 } }) = some 0x92#32 := by decide
/-- V66: more pixels than DST_CAP. -/
theorem test_decode_dst_cap :
    after State.status (exec .decode { idleBc3 5#32 5#32 [] with srcLen := 64, dstCap := some 16 }) =
      some 0xA2#32 := by decide
/-- P1: the image of EX, STATUS and the last row of DST. -/
theorem test_decode_p1 :
    after (fun u => (u.status, (u.dst.drop 48).map Prod.snd)) (exec .decode (idleBc3 4#32 4#32 exBlock)) =
      some (0x05#32, [0x55, 0xAA, 0x00, 0x91, 0xAA, 0x55, 0x00, 0x6D, 0x00, 0xFF, 0x00, 0x48, 0xFF, 0x00, 0x00, 0x24]) := by
  decide +kernel

/-! ### The other commands (tables 2.9 and 2.11, program P3) -/

theorem test_at_materialised : after State.response (exec (.atXY 0#32 0#32) readyBc3) =
    some (some ⟨true, 0xFF0000FF#32⟩) := by decide
/-- V40. -/
theorem test_at_lazy : after State.response (exec (.atXY 0#32 0#32) readyLazy) =
    some (some ⟨true, 0x40102030#32⟩) := by decide
theorem test_rddst : after State.response (exec (.rddst 3#32) readyBc3) = some (some ⟨true, 0xFF#32⟩) := by decide
/-- V78. -/
theorem test_rddst_lazy : after State.status (exec (.rddst 0#32) readyLazy) = some 0x109#32 := by decide
/-- V75 and V73. -/
theorem test_wrcfg_violations :
    after (fun u => (u.status, u.cfg.width)) (exec (.wrcfg 0#32 8#32) readyBc3) = some (0x105#32, 1#32) ∧
    after State.status (exec (.wrcfg 9#32 1#32) State.reset) = some 0x100#32 := by decide
theorem test_wrcfg : after (fun u => u.cfg.amask) (exec (.wrcfg 8#32 0xFF000000#32) State.reset) =
    some 0xFF000000#32 := by decide
theorem test_rdreg_status : after State.response (exec (.rdreg 9#32) errorState) = some (some ⟨true, 0x42#32⟩) := by
  decide
theorem test_loadsrc : after (fun u => (u.src, u.srcLen)) (exec (.loadsrc 2#32 [0xAA, 0xBB]) (idleBc3 1 1 exBlock)) =
    some ([(0, 0xAA), (1, 0xBB)], 2) := by decide
/-- RELEASE leaves the registers; V71 in IDLE. -/
theorem test_release :
    after (fun u => (u.status, u.cfg.width, u.dst)) (exec .release readyBc3) = some (0#32, 1#32, []) ∧
    after State.status (exec .release State.reset) = some 0x100#32 := by decide
/-- V79, then RESET: PROTO is cleared by RESET only. -/
theorem test_reset_clears_proto :
    after State.status (exec .decode errorState) = some 0x142#32 ∧
    after State.status (exec .reset { errorState with status := 0x142#32 }) = some 0#32 := by decide

/-! ### Witnesses: for each statement with hypotheses, states and operands that meet them -/

theorem srcLoaded_idleBc3 (w h : Word) (bs : List Byte) : SrcLoaded (idleBc3 w h bs) :=
  ⟨wf_ofBytes bs 0, read_ofBytes_isSome bs, rfl⟩

theorem srcLoaded_idleRaw (w h b rm gm bm am : Word) (bs : List Byte) : SrcLoaded (idleRaw w h b rm gm bm am bs) :=
  ⟨wf_ofBytes bs 0, read_ofBytes_isSome bs, rfl⟩

theorem unitInv_readyBc3 : UnitInv readyBc3 :=
  ⟨by unfold StatusLegal; decide, srcLoaded_idleBc3 1#32 1#32 exBlock, ⟨wf_ofBytes _ 0, fun _ _ => rfl⟩,
    fun _ => ⟨rfl, fun a ha => (read_ofBytes_isSome _ a).mpr ha⟩, by unfold SurfaceChecked; decide⟩

theorem unitInv_readyLazy : UnitInv readyLazy :=
  ⟨by unfold StatusLegal; decide,
    srcLoaded_idleRaw 1#32 1#32 32#32 0x00FF0000#32 0x0000FF00#32 0x000000FF#32 0xFF000000#32 [0x10, 0x20, 0x30, 0x40],
    ⟨wf_anyValue, fun _ h => by cases h⟩,
    fun h => absurd h (by decide), fun _ => by decide⟩

/-- A RELEASE waits: it decodes. None waits. A request that is no encoding waits. -/
theorem witness_StepRunsDecodedInstruction :
    (({ readyBc3 with pending := [encode .release] } : State).pending = encode .release :: [] ∧
      decode (encode .release) = .ok .release) ∧
    State.reset.pending = [] ∧
    decode ⟨.command, []⟩ = .error .wrongLength := ⟨⟨rfl, rfl⟩, rfl, rfl⟩

/-- One term under each check at its boundary: no payload, code 8, a tag next to a known one, a count next to a legal one. -/
theorem witness_EncodingRoundTrips :
    Instr.wellFormed (.loadsrc 0#32 []) = true ∧ Instr.wellFormed (.reservedCmd 8#4) = true ∧
    Instr.wellFormed (.kindUnsupported 0x00000001#32) = true ∧ Instr.wellFormed (.unpBadbits 0xFFFFFFFF#32) = true := by
  decide

theorem witness_DecodedInstructionIsWellFormed :
    decode ⟨.bitCount, [0x18, 0, 0, 0, 0, 0, 0, 0, 0, 0, 0, 0]⟩ = .ok (.unpBadbits 24#32) := rfl

theorem witness_InstructionsKeepPortAndCapacities :
    ∃ t, exec (.texelPut 0#32 0#32 0#32) readyBc3 = .next t := ⟨_, rfl⟩

/-- A live surface, and a WRCFG that waits. -/
theorem witness_StepKeepsInvariant :
    UnitInv { readyBc3 with pending := [encode (.wrcfg 0#32 8#32)] } ∧
    ∃ t, step { readyBc3 with pending := [encode (.wrcfg 0#32 8#32)] } = .next t := ⟨unitInv_readyBc3, _, rfl⟩

/-- A lookup on a surface of each kind, a DECODE, a load. -/
theorem witness_CommandsAlwaysComplete :
    UnitInv readyBc3 ∧ UnitInv readyLazy ∧ isCommand (.atXY 0#32 0#32) = true ∧
    Instr.wellFormed (.loadsrc 0#32 []) = true := ⟨unitInv_readyBc3, unitInv_readyLazy, rfl, rfl⟩

/-- Each case of `Violates` at its boundary, and a PROTO that is set. -/
theorem witness_ProtocolViolationChangesOnlyProto :
    Violates State.reset (.wrcfg 9#32 0#32) ∧ Violates readyBc3 (.wrcfg 0#32 0#32) ∧ Violates State.reset (.rdreg 12#32) ∧
    Violates errorState (.loadsrc 0#32 []) ∧ Violates { State.reset with srcCap := some 0 } (.loadsrc 1#32 [0]) ∧
    Violates errorState .decode ∧ Violates State.reset (.atXY 0#32 0#32) ∧ Violates readyLazy (.rddst 0#32) ∧
    Violates State.reset (.rddst 0#32) ∧ Violates State.reset .release ∧ Violates State.reset (.reservedCmd 8#4) ∧
    (∃ t, exec .release { errorState with status := 0x142#32 } = .next t) ∧ statusProto 0x142#32 = true := by
  refine ⟨.inr (by decide), .inl rfl, (by decide : 11 < (12#32).toNat), .inl rfl, .inr rfl, rfl, rfl, .inr rfl, .inl rfl,
    rfl, trivial, ⟨_, rfl⟩, by decide⟩

/-- RELEASE from READY, DECODE in IDLE and in ERROR, RDREG. -/
theorem witness_StateMovesOnlyAsTable :
    (∃ t, exec .release readyBc3 = .next t) ∧ (isIdle State.reset = true ∧ ∃ t, exec .decode State.reset = .next t) ∧
    (isIdle errorState = false ∧ ∃ t, exec .decode errorState = .next t) ∧
    (∃ t, exec (.rdreg 0#32) errorState = .next t) := ⟨⟨_, rfl⟩, ⟨rfl, _, rfl⟩, ⟨rfl, _, rfl⟩, _, rfl⟩

theorem witness_LiveSurfaceIsImmutable :
    isCommand (.loadsrc 0#32 []) = true ∧ isReady readyBc3 = true ∧ ∃ t, exec (.loadsrc 0#32 []) readyBc3 = .next t :=
  ⟨rfl, rfl, _, rfl⟩

theorem witness_ReleaseReturnsToIdle : isIdle readyBc3 = false ∧ isIdle errorState = false ∧ isIdle State.reset = true := by
  decide

/-- Register numbers 8 and 9, IDLE and not. -/
theorem witness_WrcfgWritesOneRegister :
    isIdle State.reset = true ∧ (8#32).toNat ≤ 8 ∧ 8 < (9#32).toNat ∧ isIdle readyBc3 = false := by decide

/-- Register numbers 9, 10, 11 and 12, ERRINFO defined and not. -/
theorem witness_RdregReadsOneRegister :
    (9#32).toNat ≤ 9 ∧ ((11#32).toNat ≤ 11 ∧ errInfoDefined { State.reset with status := 0x32#32 } = true) ∧
    ((10#32).toNat = 10 ∧ errInfoDefined State.reset = false) ∧ 11 < (12#32).toNat := by decide

/-- A payload that just fits, one byte too many, a unit that is not in IDLE. -/
theorem witness_LoadsrcReplacesSource :
    ([0xAA, 0xBB] : List Byte).length = (2#32).toNat ∧
    (isIdle { State.reset with srcCap := some 2 } = true ∧
      beyondCap ({ State.reset with srcCap := some 2 } : State).srcCap (2#32).toNat = false) ∧
    beyondCap ({ State.reset with srcCap := some 1 } : State).srcCap (2#32).toNat = true ∧
    isIdle errorState = false := by decide

theorem witness_ZeroDimensionIsRefused :
    isIdle (idleBc3 0#32 4#32 []) = true ∧ (idleBc3 0#32 4#32 []).cfg.width = 0#32 ∧ (idleBc3 4#32 0#32 []).cfg.height = 0#32 :=
  ⟨rfl, rfl, rfl⟩

/-- IDLE, 1 by 1, with a tag. -/
def idleTag (f : Word) : State := { State.reset with cfg := { CfgRegs.zero with width := 1, height := 1, fourcc := f } }

/-- The tag 1, next to the tag 0 (V6). -/
theorem witness_UnknownTagIsUnsupported :
    isIdle (idleTag 1#32) = true ∧ (idleTag 1#32).cfg.width ≠ 0#32 ∧ (idleTag 1#32).cfg.height ≠ 0#32 ∧
    (idleTag 1#32).cfg.fourcc ≠ 0x00000000#32 ∧ (idleTag 1#32).cfg.fourcc ≠ 0x31545844#32 ∧
    (idleTag 1#32).cfg.fourcc ≠ 0x35545844#32 := by decide

theorem witness_Bc1IsRefused :
    isIdle (idleTag 0x31545844#32) = true ∧ (idleTag 0x31545844#32).cfg.width ≠ 0#32 ∧
    (idleTag 0x31545844#32).cfg.height ≠ 0#32 ∧ (idleTag 0x31545844#32).cfg.fourcc = 0x31545844#32 := by decide

theorem witness_TagSelectsPathOfDecode :
    isIdle (idleTag 0#32) = true ∧ (idleTag 0#32).cfg.width ≠ 0#32 ∧ (idleTag 0#32).cfg.height ≠ 0#32 := by decide

theorem witness_DecodeReportsFirstError :
    isIdle (idleBc3 4#32 4#32 exBlock) = true ∧ SrcLoaded (idleBc3 4#32 4#32 exBlock) := ⟨rfl, srcLoaded_idleBc3 _ _ _⟩

/-- IDLE, set up for EX as an image of `n` by `n` pixels, with a capacity of `c` pixels. -/
def capped (n : Word) (c : Nat) : State := { idleBc3 n n exBlock with dstCap := some c }

/-- 15 bytes for one block; 16 bytes with one pixel of capacity too few; both rows that run the BC3 path. -/
theorem witness_Bc3ChecksLengthThenCapacity :
    ((idleBc3 4#32 4#32 (exBlock.take 15)).srcLen < (((4#32).toNat + 3) / 4) * (((4#32).toNat + 3) / 4) * 16 ∧
      RunsBc3Path (idleBc3 4#32 4#32 (exBlock.take 15)) .kindBc3) ∧
    ((((4#32).toNat + 3) / 4) * (((4#32).toNat + 3) / 4) * 16 ≤ (capped 4 15).srcLen ∧
      beyondCap (capped 4 15).dstCap ((4#32).toNat * (4#32).toNat) = true ∧ RunsBc3Path (capped 4 15) .decode) :=
  ⟨⟨by decide, .inl rfl⟩, by decide, by decide, .inr ⟨rfl, rfl, by decide, by decide, rfl⟩⟩

/-- A missing flag; 24 bits; 15 bytes for 16; 16 bytes. -/
theorem witness_UnpCheckTestsInOrder :
    (0x40#32 : Word) &&& 0x41#32 ≠ 0x41#32 ∧ (0x41#32 : Word) &&& 0x41#32 = 0x41#32 ∧ (24#32).toNat ∉ [8, 16, 32, 64] ∧
    (32#32).toNat ∈ [8, 16, 32, 64] ∧
    ({ State.reset with srcLen := 15 } : State).srcLen < (((2#32).toNat * (32#32).toNat + 7) / 8) * (2#32).toNat ∧
    (((2#32).toNat * (32#32).toNat + 7) / 8) * (2#32).toNat ≤ ({ State.reset with srcLen := 16 } : State).srcLen := by
  decide

/-- A 24-bit image; a 16-bit image one byte short; both rows that run the RAW path. -/
theorem witness_RawPathRaisesCheckErrors :
    RunsRawPath (idleRaw 1 1 24 0 0 0 0 []) .decode ∧ RunsRawPath (idleRaw 1 1 16 0 0 0 0 [0]) .kindNone ∧
    (idleRaw 1 1 24 0 0 0 0 []).cfg.rgbBitCount.toNat ∉ [8, 16, 32, 64] ∧
    (idleRaw 1 1 16 0 0 0 0 [0]).cfg.pfFlags &&& 0x41#32 = 0x41#32 ∧
    (idleRaw 1 1 16 0 0 0 0 [0]).cfg.rgbBitCount.toNat ∈ [8, 16, 32, 64] ∧
    (idleRaw 1 1 16 0 0 0 0 [0]).srcLen < (1#32).toNat * ((16#32).toNat / 8) * (1#32).toNat :=
  ⟨.inr ⟨rfl, rfl, by decide, by decide, rfl⟩, .inl rfl, by decide, by decide, by decide, by decide⟩

theorem witness_RawDecodeMakesLazySurface :
    RunsRawPath v50 .decode ∧ v50.cfg.pfFlags &&& 0x41#32 = 0x41#32 ∧ v50.cfg.rgbBitCount.toNat ∈ [8, 16, 32, 64] ∧
    v50.cfg.width.toNat * (v50.cfg.rgbBitCount.toNat / 8) * v50.cfg.height.toNat ≤ v50.srcLen :=
  ⟨.inr ⟨rfl, rfl, by decide, by decide, rfl⟩, by decide, by decide, by decide⟩

/-- V33a's geometry: one block for one pixel, and a capacity of one pixel. -/
theorem witness_Bc3DecodeStoresImage :
    RunsBc3Path (capped 1 1) .decode ∧ SrcLoaded (capped 1 1) ∧
    (((capped 1 1).cfg.width.toNat + 3) / 4) * (((capped 1 1).cfg.height.toNat + 3) / 4) * 16 ≤ (capped 1 1).srcLen ∧
    beyondCap (capped 1 1).dstCap ((capped 1 1).cfg.width.toNat * (capped 1 1).cfg.height.toNat) = false :=
  ⟨.inr ⟨rfl, rfl, by decide, by decide, rfl⟩, srcLoaded_idleBc3 1 1 exBlock, by decide, by decide⟩

theorem witness_Bc3ImageStoresImage :
    SrcLoaded (idleBc3 0 0 (exBlock ++ b10Block)) ∧
    (((7#32).toNat + 3) / 4) * (((3#32).toNat + 3) / 4) * 16 ≤ (idleBc3 0 0 (exBlock ++ b10Block)).srcLen ∧
    beyondCap (idleBc3 0 0 (exBlock ++ b10Block)).dstCap ((7#32).toNat * (3#32).toNat) = false :=
  ⟨srcLoaded_idleBc3 _ _ _, by decide, rfl⟩

/-- Two blocks, the right one first. -/
theorem witness_Bc3BlockOrderIsFree :
    SrcLoaded (idleBc3 7 3 (exBlock ++ b10Block)) ∧
    ((7 + 3) / 4) * ((3 + 3) / 4) * 16 ≤ (idleBc3 7 3 (exBlock ++ b10Block)).srcLen ∧
    beyondCap (idleBc3 7 3 (exBlock ++ b10Block)).dstCap (7 * 3) = false ∧
    [(1, 0), (0, 0)].Perm (rowMajor ((7 + 3) / 4) ((3 + 3) / 4)) :=
  ⟨srcLoaded_idleBc3 _ _ _, by decide, rfl, by decide⟩

theorem decode_one_pixel (s : State) (hs : s = idleBc3 1 1 exBlock ∨ s = { idleBc3 1 1 exBlock with freeTick := 7 }) :
    ∃ t, exec .decode s = .next t ∧ isReady t = true := by
  rcases hs with rfl | rfl <;> exact next_of_after (by decide +kernel)

theorem witness_LookupAfterDecodeGivesTexel :
    isIdle (idleBc3 1 1 exBlock) = true ∧ SrcLoaded (idleBc3 1 1 exBlock) ∧
    (idleBc3 1 1 exBlock).cfg.fourcc = 0x35545844#32 ∧
    (∃ t, exec .decode (idleBc3 1 1 exBlock) = .next t ∧ isReady t = true) ∧
    (0#32).toNat < (idleBc3 1 1 exBlock).cfg.width.toNat ∧ (0#32).toNat < (idleBc3 1 1 exBlock).cfg.height.toNat :=
  ⟨rfl, srcLoaded_idleBc3 _ _ _, rfl, decode_one_pixel _ (.inl rfl), by decide, by decide⟩

/-- Two units that differ in the tick of the free values. -/
theorem witness_DecodeDependsOnlyOnRegistersAndSource :
    isIdle (idleBc3 1 1 exBlock) = true ∧ SrcLoaded (idleBc3 1 1 exBlock) ∧
    (∃ t, exec .decode (idleBc3 1 1 exBlock) = .next t ∧ isReady t = true) ∧
    (∃ t, exec .decode { idleBc3 1 1 exBlock with freeTick := 7 } = .next t ∧ isReady t = true) :=
  ⟨rfl, srcLoaded_idleBc3 _ _ _, decode_one_pixel _ (.inl rfl), decode_one_pixel _ (.inr rfl)⟩

theorem witness_AtReadsMaterialisedPixel :
    isReady readyBc3 = true ∧ isMaterialised readyBc3 = true ∧ (0#32).toNat < readyBc3.cfg.width.toNat ∧
    (0#32).toNat < readyBc3.cfg.height.toNat ∧ HoldsPixel readyBc3.dst 0 ⟨255, 0, 0, 255⟩ :=
  ⟨rfl, rfl, by decide, by decide, rfl, rfl, rfl, rfl⟩

theorem witness_AtUnpacksLazyPixel :
    isReady readyLazy = true ∧ statusSurf readyLazy.status = surfLazy ∧ SurfaceChecked readyLazy ∧ SrcLoaded readyLazy ∧
    (0#32).toNat < readyLazy.cfg.width.toNat ∧ (0#32).toNat < readyLazy.cfg.height.toNat :=
  ⟨rfl, by decide, unitInv_readyLazy.2.2.2.2, unitInv_readyLazy.2.1, by decide, by decide⟩

/-- One past the image in each direction. -/
theorem witness_AtOutOfBoundsIsNotServed :
    isReady readyBc3 = true ∧ readyBc3.cfg.width.toNat ≤ (1#32).toNat ∧ readyBc3.cfg.height.toNat ≤ (1#32).toNat := by decide

/-- The last byte, one past it, and a surface that is not materialised. -/
theorem witness_RddstReadsOneByte :
    isReady readyBc3 = true ∧ isMaterialised readyBc3 = true ∧
    (3#32).toNat < 4 * (readyBc3.cfg.width.toNat * readyBc3.cfg.height.toNat) ∧
    4 * (readyBc3.cfg.width.toNat * readyBc3.cfg.height.toNat) ≤ (4#32).toNat ∧
    Memory.read readyBc3.dst (3#32).toNat = some 255#8 ∧ isReady State.reset = false ∧ isMaterialised readyLazy = false := by
  decide

theorem witness_RddstAgreesWithAt :
    isReady readyBc3 = true ∧ isMaterialised readyBc3 = true ∧
    (3#32).toNat < 4 * (readyBc3.cfg.width.toNat * readyBc3.cfg.height.toNat) ∧
    (0#32).toNat = ((3#32).toNat / 4) % readyBc3.cfg.width.toNat ∧
    (0#32).toNat = ((3#32).toNat / 4) / readyBc3.cfg.width.toNat ∧
    (∃ t, exec (.rddst 3#32) readyBc3 = .next t ∧ t.response = some ⟨true, 0xFF#32⟩) ∧
    (∃ u, exec (.atXY 0#32 0#32) readyBc3 = .next u ∧ u.response = some ⟨true, 0xFF0000FF#32⟩) :=
  ⟨rfl, rfl, by decide, by decide, by decide, next_of_after test_rddst, next_of_after test_at_materialised⟩

/-- Endpoints in the 7-step order, and two codes at the ends of the range. -/
theorem witness_SevenStepInterpolation :
    (withAlpha 255#8 0#8).latches.a1.toNat < (withAlpha 255#8 0#8).latches.a0.toNat ∧ 2 ≤ 2 ∧ 2 ≤ 7 ∧ 7 ≤ 7 := by decide

/-- Endpoints in the 5-step order (equal), and two codes at the ends of the range. -/
theorem witness_FiveStepInterpolation :
    (withAlpha 200#8 200#8).latches.a0.toNat ≤ (withAlpha 200#8 200#8).latches.a1.toNat ∧ 2 ≤ 2 ∧ 2 ≤ 5 ∧ 5 ≤ 5 := by
  decide

/-- The zero mask; a mask whose lowest set bit is the highest bit; a mask with a hole. -/
theorem witness_ChannelMasksShiftsTruncates :
    (0#32 : Word) = 0#32 ∧
    ((0x80000000#32).getLsbD 31 = true ∧ ∀ j, j < 31 → (0x80000000#32).getLsbD j = false) ∧
    ((0xF0F0#32).getLsbD 4 = true ∧ ∀ j, j < 4 → (0xF0F0#32).getLsbD j = false) := by decide

/-- The last pixel of a 2 by 2 image, with a capacity of four pixels and of three; one past the image. -/
theorem witness_TexelPutWritesOrDrops :
    (∀ c ∈ [3, 4], (1#32).toNat < (capped 2 c).cfg.width.toNat ∧ (1#32).toNat < (capped 2 c).cfg.height.toNat) ∧
    beyondCap (capped 2 4).dstCap ((1#32).toNat * (capped 2 4).cfg.width.toNat + (1#32).toNat + 1) = false ∧
    beyondCap (capped 2 3).dstCap ((1#32).toNat * (capped 2 3).cfg.width.toNat + (1#32).toNat + 1) = true ∧
    (capped 2 4).cfg.width.toNat ≤ (2#32).toNat ∧ (capped 2 4).cfg.height.toNat ≤ (2#32).toNat := by decide

/-- The last pixel of V50 for the 16-bit row: its bytes end where SRC ends; the other rows at pixel (0, 0). -/
theorem witness_UnpFetchReadsPixel :
    SrcLoaded v50 ∧
    (1#32).toNat * (v50.cfg.width.toNat * 2) + (2#32).toNat * 2 + 2 ≤ v50.srcLen ∧
    (0#32).toNat * (v50.cfg.width.toNat * 1) + (0#32).toNat * 1 + 1 ≤ v50.srcLen ∧
    (0#32).toNat * (v50.cfg.width.toNat * 4) + (0#32).toNat * 4 + 4 ≤ v50.srcLen ∧
    (0#32).toNat * (v50.cfg.width.toNat * 8) + (0#32).toNat * 8 + 8 ≤ v50.srcLen :=
  ⟨srcLoaded_idleRaw _ _ _ _ _ _ _ _, by decide, by decide, by decide, by decide⟩

/-- One byte short for each row. -/
theorem witness_UnpFetchOutsideSourceFaults :
    ∀ n ∈ [1, 2, 4, 8], ({ idleTag 0#32 with srcLen := n - 1 } : State).srcLen <
      (0#32).toNat * ((idleTag 0#32).cfg.width.toNat * n) + (0#32).toNat * n + n := by decide

theorem witness_UnpPixelUnpacksFourChannels :
    decode ⟨.bitCount, leBytes 4 readyLazy.cfg.rgbBitCount.toNat ++ leBytes 4 (0#32).toNat ++ leBytes 4 (0#32).toNat⟩ =
      .ok (.unpFetch32 0#32 0#32) ∧
    readyLazy.cfg.rgbBitCount.toNat ∈ [8, 16, 32, 64] ∧ ∃ sf, exec (.unpFetch32 0#32 0#32) readyLazy = .next sf :=
  ⟨rfl, by decide, _, rfl⟩

theorem witness_UnpPixelCompletesInBounds :
    SrcLoaded v50 ∧ rawCheck v50.cfg.width v50.cfg.height v50.cfg.pfFlags v50.cfg.rgbBitCount v50.srcLen = none ∧
    (2#32).toNat < v50.cfg.width.toNat ∧ (1#32).toNat < v50.cfg.height.toNat :=
  ⟨srcLoaded_idleRaw _ _ _ _ _ _ _ _, by decide, by decide, by decide⟩

end Sys2Proof.Tests
end

section
/-! The commands that configure the unit and the first decisions of DECODE (40_dispatch.md): the laws of the shared
operations they end in, one equation per branch of each command, and the statements assembled from them. -/

namespace Sys2Proof.Machine

/-! ### The endings that commands share -/

theorem violationFrom_protocolViolation (s : State) : ViolationFrom s (protocolViolation s) :=
  ⟨freeNow s 0, rfl⟩

/-- Writing STATE, SURF and ERR leaves PROTO and the bits above it. -/
@[simp] theorem protoAndAbove_setOutcome (st surf : BitVec 2) (err : BitVec 4) (w : Word) :
    (setOutcome st surf err w).extractLsb' 8 24 = w.extractLsb' 8 24 := by
  ext i hi
  simp [getLsbD_setOutcome, show ¬ 8 + i < 2 by omega, show ¬ 8 + i < 4 by omega]

theorem raisedFrom_raise (c : Cause) (info0 info1 : Word) (s : State) : RaisedFrom c s (raise c info0 info1 s) := by
  simp [RaisedFrom]

/-! ### The registers by number (10_state.md R14) -/

theorem readCfg_of_gt {n : Nat} (hn : 8 < n) (c : CfgRegs) : readCfg n c = none := by
  obtain ⟨k, rfl⟩ := Nat.exists_eq_add_of_le' hn
  rfl

theorem readCfg_writeCfg_same {n : Nat} (hn : n ≤ 8) (v : Word) (c : CfgRegs) :
    readCfg n (writeCfg n v c) = some v := by
  interval_cases n <;> rfl

/-- By the register written and the register read: equal numbers contradict `hne`, unequal ones name other fields. -/
theorem readCfg_writeCfg_other {n m : Nat} (hne : n ≠ m) (v : Word) (c : CfgRegs) :
    readCfg n (writeCfg m v c) = readCfg n c := by
  unfold writeCfg
  split
  all_goals
    unfold readCfg
    split <;> simp_all

theorem readReg_eq_readCfg {n : Nat} (hn : n ≤ 8 ∨ 11 < n) (s : State) : readReg n s = readCfg n s.cfg := by
  rcases hn with below | above
  · interval_cases n <;> rfl
  · obtain ⟨k, rfl⟩ := Nat.exists_eq_add_of_le' above
    rfl

theorem readReg_isSome {n : Nat} (hn : n ≤ 11) (s : State) : (readReg n s).isSome = true := by
  interval_cases n <;> rfl

theorem readReg_of_gt {n : Nat} (hn : 11 < n) (s : State) : readReg n s = none := by
  rw [readReg_eq_readCfg (.inr hn), readCfg_of_gt (by omega)]

@[simp] theorem readReg_respond (n : Nat) (ok : Bool) (v : Word) (s : State) :
    readReg n (respond ok v s) = readReg n s := rfl

theorem readReg_writeCfg_same {n : Nat} (hn : n ≤ 8) (v : Word) (s : State) :
    readReg n { s with cfg := writeCfg n v s.cfg } = some v := by
  rw [readReg_eq_readCfg (.inl hn)]
  exact readCfg_writeCfg_same hn v s.cfg

theorem readReg_writeCfg_other {n m : Nat} (hne : n ≠ m) (v : Word) (s : State) :
    readReg n { s with cfg := writeCfg m v s.cfg } = readReg n s := by
  unfold readReg
  split
  · rfl
  · rfl
  · rfl
  · exact readCfg_writeCfg_other hne v s.cfg

/-! ### Protocol violations -/

/-- Every situation that `Violates` lists ends in the one operation of 60_exceptions.md R199. -/
theorem exec_of_violates {i : Instr} {s : State} (h : Violates s i) : exec i s = .next (protocolViolation s) := by
  cases i with
  | wrcfg a0 a1 =>
    have test : (!isIdle s || decide (8 < a0.toNat)) = true := by simpa [Violates] using h
    exact if_pos test
  | rdreg a0 =>
    have above : 11 < a0.toNat := h
    simp [exec, execRdreg, readReg_of_gt above, show a0.toNat ≠ 10 by omega, show a0.toNat ≠ 11 by omega]
  | loadsrc n payload =>
    have test : (!isIdle s || beyondCap s.srcCap n.toNat) = true := by simpa [Violates] using h
    exact if_pos test
  | decode =>
    have test : (!isIdle s) = true := by simpa [Violates] using h
    exact if_pos test
  | atXY x y =>
    have test : (!isReady s) = true := by simpa [Violates] using h
    exact if_pos test
  | rddst k =>
    have test : (!isReady s || !isMaterialised s) = true := by simpa [Violates] using h
    exact if_pos test
  | release => exact if_pos h
  | reservedCmd cmd => rfl
  | _ => exact h.elim

/-- A command that violates the protocol changes PROTO and the response only. -/
theorem exec_violationFrom {i : Instr} {s : State} (h : Violates s i) :
    ∃ t, exec i s = .next t ∧ ViolationFrom s t :=
  ⟨_, exec_of_violates h, violationFrom_protocolViolation s⟩

/-! ### WRCFG, RDREG and LOADSRC where they are served -/

theorem exec_wrcfg_served {a0 : Word} {s : State} (idle : isIdle s = true) (number : a0.toNat ≤ 8) (a1 : Word) :
    exec (.wrcfg a0 a1) s = .next (respond true 0#32 { s with cfg := writeCfg a0.toNat a1 s.cfg }) := by
  simp [exec, execWrcfg, idle, number]

/-- A register whose content is defined is answered as it stands. -/
theorem exec_rdreg_defined {a0 v : Word} {s : State} (reads : readReg a0.toNat s = some v)
    (defined : a0.toNat ≤ 9 ∨ errInfoDefined s = true) : exec (.rdreg a0) s = .next (respond true v s) := by
  have test : ((a0.toNat == 10 || a0.toNat == 11) && !errInfoDefined s) = false := by
    rcases defined with number | info
    · simp [show a0.toNat ≠ 10 by omega, show a0.toNat ≠ 11 by omega]
    · simp [info]
  simp [exec, execRdreg, test, reads]

/-- ERRINFO0 and ERRINFO1 read as any value outside ERROR with code 3 (10_state.md R23). -/
theorem exec_rdreg_undefined {a0 : Word} {s : State} (number : a0.toNat = 10 ∨ a0.toNat = 11)
    (info : errInfoDefined s = false) : exec (.rdreg a0) s = .next (respondAny true s) := by
  have test : ((a0.toNat == 10 || a0.toNat == 11) && !errInfoDefined s) = true := by simpa [info] using number
  exact if_pos test

theorem exec_loadsrc_served {n : Word} {s : State} (idle : isIdle s = true)
    (fits : beyondCap s.srcCap n.toNat = false) (payload : List Byte) :
    exec (.loadsrc n payload) s =
      .next (respond true 0#32 { s with src := Memory.ofBytes 0 payload, srcLen := n.toNat }) := by
  simp [exec, execLoadsrc, idle, fits]

/-! ### DECODE -/

theorem exec_decode_zeroDim {s : State} (idle : isIdle s = true) (zero : s.cfg.width = 0#32 ∨ s.cfg.height = 0#32) :
    exec .decode s = .next (raisePlain .refZeroDim s) := by
  simp [exec, execDecode, idle, zero]

/-- Past its first two checks DECODE runs the path of the tag (40_dispatch.md R96). -/
theorem exec_decode_dispatch {s : State} (idle : isIdle s = true) (hw : s.cfg.width ≠ 0#32) (hh : s.cfg.height ≠ 0#32) :
    exec .decode s = dispatchKind (kindOf s.cfg.fourcc) s := by
  simp [exec, execDecode, idle, hw, hh]

theorem kindOf_unsupported {f : Word} (hnone : f ≠ Config.tagNone) (dxt1 : f ≠ Config.tagDxt1)
    (dxt5 : f ≠ Config.tagDxt5) : kindOf f = .unsupported f := by
  simp [kindOf, hnone, dxt1, dxt5]

/-! ### The statements -/

/-- Settles O17: the payload's bytes are the load's, whose reads and canonical form the memory laws give. -/
theorem loadsrcReplacesSource : Obligations.LoadsrcReplacesSource := by
  intro n payload s _
  refine ⟨fun idle fits => ⟨_, exec_loadsrc_served idle fits payload, rfl, fun a => ?_, wf_ofBytes payload 0, rfl, rfl⟩,
    fun h => exec_violationFrom h⟩
  simpa using read_ofBytes payload 0 a

/-- Settles O15: a register read after the write of the same and of another register. -/
theorem wrcfgWritesOneRegister : Obligations.WrcfgWritesOneRegister := by
  intro a0 a1 s
  refine ⟨fun idle number => ⟨_, exec_wrcfg_served idle number a1, ?same, fun n hne => ?other, rfl, rfl⟩,
    fun h => exec_violationFrom h⟩
  case same => rw [readReg_respond, readReg_writeCfg_same number]
  case other => rw [readReg_respond, readReg_writeCfg_other hne]

/-- Settles O16, by the register number: defined content, ERRINFO with no defined content, no register. -/
theorem rdregReadsOneRegister : Obligations.RdregReadsOneRegister := by
  intro a0 s
  refine ⟨fun defined => ?_, fun number info => ⟨freeNow s 0, exec_rdreg_undefined number info⟩,
    fun above => exec_violationFrom above⟩
  obtain ⟨v, reads⟩ := Option.isSome_iff_exists.mp (readReg_isSome (n := a0.toNat) (by omega) s)
  exact ⟨v, reads, exec_rdreg_defined reads (defined.imp_right And.right)⟩

/-- Settles O18: the zero dimension is the first test past IDLE, and a refusal is a `raise` with no info. -/
theorem zeroDimensionIsRefused : Obligations.ZeroDimensionIsRefused := by
  intro s idle zero
  exact ⟨_, exec_decode_zeroDim idle zero, raisedFrom_raise .refZeroDim 0#32 0#32 s⟩

/-- Settles O19: the tag is of the kind Unsupported, whose path raises with the tag as info. -/
theorem unknownTagIsUnsupported : Obligations.UnknownTagIsUnsupported := by
  intro s idle hw hh hnone dxt1 dxt5
  have runs : exec .decode s = .next (raise .unsupportedFormatError s.cfg.fourcc 0#32 s) := by
    rw [exec_decode_dispatch idle hw hh, kindOf_unsupported hnone dxt1 dxt5]
    rfl
  exact ⟨_, runs, raisedFrom_raise .unsupportedFormatError s.cfg.fourcc 0#32 s, rfl, rfl⟩

end Sys2Proof.Machine
end

section
/-! One block (41_bc3_block.md): its bytes as latches, the codes of a texel as slices of the index tables, the
interpolations as truncated weighted means, the operations the codes select, and the statements assembled from them. -/

namespace Sys2Proof

/-! ### Slices of a little-endian value -/

theorem leNat_drop (bs : List Byte) (k : Nat) : leNat (bs.drop k) = leNat bs / 256 ^ k := by
  induction k generalizing bs with
  | zero => simp
  | succ k ih =>
    cases bs with
    | nil => simp [leNat]
    | cons b bs =>
      have hb : b.toNat < 256 := b.isLt
      rw [List.drop_succ_cons, ih, Nat.pow_succ', ← Nat.div_div_eq_div_mul, leNat]
      congr 1
      omega

theorem leNat_take (bs : List Byte) (n : Nat) : leNat (bs.take n) = leNat bs % 256 ^ n := by
  induction n generalizing bs with
  | zero => simp [leNat, Nat.mod_one]
  | succ n ih =>
    cases bs with
    | nil => simp [leNat]
    | cons b bs =>
      have hb : b.toNat < 256 := b.isLt
      rw [List.take_succ_cons, leNat, leNat, ih, Nat.pow_succ', Nat.mod_mul, Nat.add_mul_mod_self_left,
        Nat.mod_eq_of_lt hb, Nat.add_mul_div_left _ _ (by decide), Nat.div_eq_of_lt hb, Nat.zero_add]

/-- The field of `n` bytes from byte `k` of a little-endian word is the little-endian value of those bytes. -/
theorem toNat_extractLsb'_leNat (bs : List Byte) {w k n : Nat} (inside : 8 * (k + n) ≤ w) :
    ((BitVec.ofNat w (leNat bs)).extractLsb' (8 * k) (8 * n)).toNat = leNat ((bs.drop k).take n) := by
  have split : 2 ^ w = 2 ^ (8 * k) * 2 ^ (w - 8 * k) := by rw [← Nat.pow_add]; congr 1; omega
  have within : 2 ^ (8 * n) ∣ 2 ^ (w - 8 * k) := Nat.pow_dvd_pow 2 (by omega)
  have bytes (m : Nat) : 256 ^ m = 2 ^ (8 * m) := Nat.pow_mul 2 8 m |>.symm
  rw [BitVec.extractLsb'_toNat, BitVec.toNat_ofNat, Nat.shiftRight_eq_div_pow, split, Nat.mod_mul_right_div_self,
    Nat.mod_mod_of_dvd _ within, leNat_take, leNat_drop, bytes, bytes]

/-- A byte put below a word is the next byte of its little-endian value. -/
theorem toNat_append_byte {n : Nat} (hi : BitVec n) (lo : Byte) : (hi ++ lo).toNat = lo.toNat + 256 * hi.toNat := by
  rw [BitVec.toNat_append, ← Nat.shiftLeft_add_eq_or_of_lt lo.isLt, Nat.shiftLeft_eq]
  omega

namespace Machine

/-! ### The latches of a block (41_bc3_block.md R110) -/

theorem parseBlock_bytes (b0 b1 b2 b3 b4 b5 b6 b7 b8 b9 b10 b11 b12 b13 b14 b15 : Byte) :
    parseBlock (BitVec.ofNat 128 (leNat [b0, b1, b2, b3, b4, b5, b6, b7, b8, b9, b10, b11, b12, b13, b14, b15])) =
      { a0 := b0, a1 := b1, alo := b3 ++ b2, ahi := b7 ++ b6 ++ b5 ++ b4,
        c0 := b9 ++ b8, c1 := b11 ++ b10, cix := b15 ++ b14 ++ b13 ++ b12 } := by
  refine Latches.mk.injEq .. |>.mpr ⟨?a0, ?a1, ?alo, ?ahi, ?c0, ?c1, ?cix⟩
  all_goals apply BitVec.eq_of_toNat_eq
  case a0 => exact toNat_extractLsb'_leNat _ (k := 0) (n := 1) (by decide)
  case a1 => exact toNat_extractLsb'_leNat _ (k := 1) (n := 1) (by decide)
  case alo =>
    rw [toNat_append_byte]
    exact toNat_extractLsb'_leNat _ (k := 2) (n := 2) (by decide)
  case ahi =>
    simp only [toNat_append_byte]
    exact toNat_extractLsb'_leNat _ (k := 4) (n := 4) (by decide)
  case c0 =>
    rw [toNat_append_byte]
    exact toNat_extractLsb'_leNat _ (k := 8) (n := 2) (by decide)
  case c1 =>
    rw [toNat_append_byte]
    exact toNat_extractLsb'_leNat _ (k := 10) (n := 2) (by decide)
  case cix =>
    simp only [toNat_append_byte]
    exact toNat_extractLsb'_leNat _ (k := 12) (n := 4) (by decide)

/-! ### The codes of a texel are slices of the index tables (41_bc3_block.md R113, R123) -/

/-- Shift and mask is a slice. -/
theorem ofNat_shiftRight_and_mask {w : Nat} (x : BitVec w) (k n : Nat) :
    BitVec.ofNat n ((x.toNat >>> k) &&& (2 ^ n - 1)) = x.extractLsb' k n := by
  apply BitVec.eq_of_toNat_eq
  rw [Nat.and_two_pow_sub_one_eq_mod, BitVec.toNat_ofNat, Nat.mod_mod, BitVec.extractLsb'_toNat]

/-- The code that lies across the two words: bit 15 of the low one, then bits 0 and 1 of the high one. -/
theorem straddle_eq_slice (alo : BitVec 16) (ahi : Word) :
    BitVec.ofNat 3 ((alo.toNat >>> 15) ||| ((ahi.toNat <<< 1) &&& 0x6)) = (ahi ++ alo).extractLsb' 15 3 := by
  ext i hi
  rw [← BitVec.getLsbD_eq_getElem, BitVec.getLsbD_ofNat, BitVec.getElem_extractLsb', BitVec.getLsbD_append]
  simp only [Nat.testBit_or, Nat.testBit_and, Nat.testBit_shiftRight, Nat.testBit_shiftLeft, BitVec.testBit_toNat]
  match i with
  | 0 => simp [show Nat.testBit 6 0 = false from rfl]
  | 1 => simp [show Nat.testBit 6 1 = true from rfl]
  | 2 => simp [show Nat.testBit 6 2 = true from rfl]

theorem alphaCode_lowWord (l : Latches) {t : Nat} (ht : t ≤ 4) : alphaCode l t = l.alo.extractLsb' (3 * t) 3 := by
  rw [← ofNat_shiftRight_and_mask]
  exact if_pos (by omega)

theorem alphaCode_highWord (l : Latches) {t : Nat} (ht : 6 ≤ t) :
    alphaCode l t = l.ahi.extractLsb' (3 * t - 16) 3 := by
  have notAcross : straddle t = false := by simp only [straddle, beq_eq_false_iff_ne]; omega
  rw [← ofNat_shiftRight_and_mask]
  simp [alphaCode, notAcross, show ¬ 3 * t ≤ 12 by omega]

theorem alphaCode_eq_slice (l : Latches) (t : Nat) : alphaCode l t = (alphaTable l).extractLsb' (3 * t) 3 := by
  rw [alphaTable]
  rcases (by omega : t ≤ 4 ∨ t = 5 ∨ 6 ≤ t) with low | rfl | high
  · rw [alphaCode_lowWord l low, BitVec.extractLsb'_append_eq_of_add_le (by omega)]
  · exact straddle_eq_slice l.alo l.ahi
  · rw [alphaCode_highWord l high, BitVec.extractLsb'_append_eq_of_le (by omega)]

theorem colourCode_eq_slice (l : Latches) (t : Nat) : colourCode l t = l.cix.extractLsb' (2 * t) 2 :=
  ofNat_shiftRight_and_mask l.cix (2 * t) 2

/-! ### Truncated weighted means -/

theorem weightedMean_le {w0 w1 d x y m : Nat} (weights : w0 + w1 = d) (hx : x ≤ m) (hy : y ≤ m) :
    (w0 * x + w1 * y) / d ≤ m := by
  apply Nat.div_le_of_le_mul
  calc w0 * x + w1 * y ≤ w0 * m + w1 * m := Nat.add_le_add (Nat.mul_le_mul_left w0 hx) (Nat.mul_le_mul_left w1 hy)
    _ = d * m := by rw [← Nat.add_mul, weights]

theorem le_weightedMean {w0 w1 d x y m : Nat} (weights : w0 + w1 = d) (pos : 0 < d) (hx : m ≤ x) (hy : m ≤ y) :
    m ≤ (w0 * x + w1 * y) / d := by
  rw [Nat.le_div_iff_mul_le pos]
  calc m * d = w0 * m + w1 * m := by rw [← Nat.add_mul, weights, Nat.mul_comm]
    _ ≤ w0 * x + w1 * y := Nat.add_le_add (Nat.mul_le_mul_left w0 hx) (Nat.mul_le_mul_left w1 hy)

/-- Weight moved from the second value to the first moves the mean towards the first. -/
theorem weightedMean_mono {w0 w1 v0 v1 d x y : Nat} (weights : w0 + w1 = v0 + v1) (moved : w0 ≤ v0) (order : y ≤ x) :
    (w0 * x + w1 * y) / d ≤ (v0 * x + v1 * y) / d := by
  obtain ⟨k, rfl⟩ := Nat.exists_eq_add_of_le moved
  obtain rfl : w1 = k + v1 := by omega
  apply Nat.div_le_div_right
  calc w0 * x + (k + v1) * y = w0 * x + k * y + v1 * y := by ring
    _ ≤ w0 * x + k * x + v1 * y := by have := Nat.mul_le_mul_left k order; omega
    _ = (w0 + k) * x + v1 * y := by ring

/-- A weighted mean of two bytes is stored in a byte with no loss. -/
theorem toNat_ofNat_weightedMean {w0 w1 d : Nat} (weights : w0 + w1 = d) (x y : Byte) :
    (BitVec.ofNat 8 ((w0 * x.toNat + w1 * y.toNat) / d)).toNat = (w0 * x.toNat + w1 * y.toNat) / d := by
  have fits : (w0 * x.toNat + w1 * y.toNat) / d ≤ 255 :=
    weightedMean_le weights (Nat.le_of_lt_succ x.isLt) (Nat.le_of_lt_succ y.isLt)
  rw [BitVec.toNat_ofNat, Nat.mod_eq_of_lt (by omega)]

theorem toNat_lerp7 {code : Nat} (low : 2 ≤ code) (high : code ≤ 7) (a0 a1 : Byte) :
    (lerp7 code a0 a1).toNat = ((8 - code) * a0.toNat + (code - 1) * a1.toNat) / 7 :=
  toNat_ofNat_weightedMean (by omega) a0 a1

theorem toNat_lerp5 {code : Nat} (low : 2 ≤ code) (high : code ≤ 5) (a0 a1 : Byte) :
    (lerp5 code a0 a1).toNat = ((6 - code) * a0.toNat + (code - 1) * a1.toNat) / 5 :=
  toNat_ofNat_weightedMean (by omega) a0 a1

theorem toNat_mixChannel {w0 w1 : Nat} (weights : w0 + w1 = 3) (e0 e1 : Byte) :
    (mixChannel w0 w1 e0 e1).toNat = (w0 * e0.toNat + w1 * e1.toNat) / 3 :=
  toNat_ofNat_weightedMean weights e0 e1

/-! ### The rows of the interpolations -/

/-- The rows of A7.LERP with their codes (30_encoding.md R70). -/
def lerp7Rows : List (Instr × Nat) :=
  [(.a7Lerp2, 2), (.a7Lerp3, 3), (.a7Lerp4, 4), (.a7Lerp5, 5), (.a7Lerp6, 6), (.a7Lerp7, 7)]

/-- The rows of A5.LERP with their codes (30_encoding.md R70). -/
def lerp5Rows : List (Instr × Nat) := [(.a5Lerp2, 2), (.a5Lerp3, 3), (.a5Lerp4, 4), (.a5Lerp5, 5)]

theorem code_of_mem_lerp7Rows : ∀ p ∈ lerp7Rows, 2 ≤ p.2 ∧ p.2 ≤ 7 := by decide

theorem code_of_mem_lerp5Rows : ∀ p ∈ lerp5Rows, 2 ≤ p.2 ∧ p.2 ≤ 5 := by decide

theorem exec_lerp7Rows (s : State) :
    ∀ p ∈ lerp7Rows, exec p.1 s = .next (setAlpha (lerp7 p.2 s.latches.a0 s.latches.a1) s) := by
  simp only [lerp7Rows, List.forall_mem_cons]
  exact ⟨rfl, rfl, rfl, rfl, rfl, rfl, List.forall_mem_nil _⟩

theorem exec_lerp5Rows (s : State) :
    ∀ p ∈ lerp5Rows, exec p.1 s = .next (setAlpha (lerp5 p.2 s.latches.a0 s.latches.a1) s) := by
  simp only [lerp5Rows, List.forall_mem_cons]
  exact ⟨rfl, rfl, rfl, rfl, List.forall_mem_nil _⟩

theorem lerp7_between {code : Nat} (low : 2 ≤ code) (high : code ≤ 7) {a0 a1 : Byte} (order : a1.toNat ≤ a0.toNat) :
    a1.toNat ≤ (lerp7 code a0 a1).toNat ∧ (lerp7 code a0 a1).toNat ≤ a0.toNat := by
  have weights : (8 - code) + (code - 1) = 7 := by omega
  rw [toNat_lerp7 low high]
  exact ⟨le_weightedMean weights (by decide) order le_rfl, weightedMean_le weights le_rfl order⟩

theorem lerp5_between {code : Nat} (low : 2 ≤ code) (high : code ≤ 5) {a0 a1 : Byte} (order : a0.toNat ≤ a1.toNat) :
    a0.toNat ≤ (lerp5 code a0 a1).toNat ∧ (lerp5 code a0 a1).toNat ≤ a1.toNat := by
  have weights : (6 - code) + (code - 1) = 5 := by omega
  rw [toNat_lerp5 low high]
  exact ⟨le_weightedMean weights (by decide) le_rfl order, weightedMean_le weights order le_rfl⟩

theorem lerp7_antitone {c c' : Nat} (low : 2 ≤ c) (le : c ≤ c') (high : c' ≤ 7) {a0 a1 : Byte}
    (order : a1.toNat ≤ a0.toNat) : (lerp7 c' a0 a1).toNat ≤ (lerp7 c a0 a1).toNat := by
  rw [toNat_lerp7 low (by omega), toNat_lerp7 (by omega) high]
  exact weightedMean_mono (by omega) (by omega) order

theorem lerp5_monotone {c c' : Nat} (low : 2 ≤ c) (le : c ≤ c') (high : c' ≤ 5) {a0 a1 : Byte}
    (order : a0.toNat ≤ a1.toNat) : (lerp5 c a0 a1).toNat ≤ (lerp5 c' a0 a1).toNat := by
  rw [toNat_lerp5 low (by omega), toNat_lerp5 (by omega) high, Nat.add_comm, Nat.add_comm (_ * a0.toNat)]
  exact weightedMean_mono (by omega) (by omega) order

/-! ### The operation a code selects (30_encoding.md R70, R71; 41_bc3_block.md R121, R129) -/

theorem alphaOf_mode7 {a0 a1 : Byte} (mode : a1.toNat < a0.toNat) (code : BitVec 3) :
    alphaOf a0 a1 code =
      if code.toNat = 0 then a0 else if code.toNat = 1 then a1 else lerp7 code.toNat a0 a1 := by
  simp [alphaOf, mode7, mode]

theorem alphaOf_mode5 {a0 a1 : Byte} (mode : ¬ a1.toNat < a0.toNat) (code : BitVec 3) :
    alphaOf a0 a1 code =
      if code.toNat = 0 then a0 else if code.toNat = 1 then a1
      else if code.toNat = 6 then 0#8 else if code.toNat = 7 then 255#8 else lerp5 code.toNat a0 a1 := by
  simp [alphaOf, mode7, mode]

/-- The alpha code map, code by code in both orders of the endpoints: the operation the selector `MODE7 ++ code` decodes
to computes AlphaOf. -/
theorem alphaSelector_computes_alphaOf (code : BitVec 3) (s : State) :
    ∃ i, decode ⟨.alphaSelector,
        [BitVec.ofNat 8 ((if s.latches.a1.toNat < s.latches.a0.toNat then 8 else 0) + code.toNat)]⟩ = .ok i ∧
      exec i s = .next (setAlpha (alphaOf s.latches.a0 s.latches.a1 code) s) := by
  obtain ⟨n, hn⟩ := code
  by_cases mode : s.latches.a1.toNat < s.latches.a0.toNat
  · rw [if_pos mode, alphaOf_mode7 mode]
    interval_cases n <;> exact ⟨_, rfl, rfl⟩
  · rw [if_neg mode, alphaOf_mode5 mode]
    interval_cases n <;> exact ⟨_, rfl, rfl⟩

/-- The colour code map, code by code: the operation a code decodes to computes ColourOf. -/
theorem colourSelector_computes_colourOf (cc : BitVec 2) (s : State) :
    ∃ i, decode ⟨.colourCode, [BitVec.ofNat 8 cc.toNat]⟩ = .ok i ∧
      exec i s = .next (setRgb (colourOf s.latches.c0 s.latches.c1 cc) s) := by
  obtain ⟨n, hn⟩ := cc
  interval_cases n <;> exact ⟨_, rfl, rfl⟩

/-! ### The operations on one block, each as the update it makes -/

theorem exec_blkParse (v : BitVec 128) (s : State) : exec (.blkParse v) s = .next (setLatches (parseBlock v) s) := rfl

theorem exec_aSel (t : BitVec 4) (s : State) :
    exec (.aSel t) s = .next (setAcode (alphaCode s.latches t.toNat) s) := rfl

theorem exec_cSel (t : BitVec 4) (s : State) :
    exec (.cSel t) s = .next (setCcode (colourCode s.latches t.toNat) s) := rfl

theorem exec_bc3Texel (t : BitVec 4) (s : State) :
    exec (.bc3Texel t) s = .next (setPixel (texelOf s.latches t.toNat) s) := rfl

theorem exec_bc3Block (v : BitVec 128) (s : State) :
    exec (.bc3Block v) s = .next (setTile (tileOf (parseBlock v)) (setLatches (parseBlock v) s)) := rfl

/-! ### The sixteen texels of a block (41_bc3_block.md R130) -/

@[simp] theorem length_tileOf (l : Latches) : (tileOf l).length = 16 := by simp [tileOf]

theorem getElem?_tileOf (l : Latches) {t : Nat} (ht : t < 16) : (tileOf l)[t]? = some (texelOf l t) := by
  simp [tileOf, ht]

/-! ### The statements -/

/-- Settles O38: each field of the block is the little-endian value of its bytes. -/
theorem blkParseLoadsLatches : Obligations.BlkParseLoadsLatches := by
  intro b0 b1 b2 b3 b4 b5 b6 b7 b8 b9 b10 b11 b12 b13 b14 b15 s
  rw [exec_blkParse, parseBlock_bytes]
  rfl

/-- Settles O39, by the three cases of the source: low word, across the words, high word. -/
theorem alphaCodeIsTableSlice : Obligations.AlphaCodeIsTableSlice := by
  intro t s
  rw [exec_aSel, alphaCode_eq_slice]
  rfl

/-- Settles O40: the shift and the mask are the slice. -/
theorem colourCodeIsTableSlice : Obligations.ColourCodeIsTableSlice := by
  intro t s
  rw [exec_cSel, colourCode_eq_slice]
  rfl

/-- Settles O41: the four meanings are these constants and latches. -/
theorem alphaEndpointsAndConstants : Obligations.AlphaEndpointsAndConstants :=
  fun _ => ⟨rfl, rfl, rfl, rfl⟩

/-- Settles O42: the weights `8 - code` and `code - 1` sum to 7, and a higher code moves weight to A1. -/
theorem sevenStepInterpolation : Obligations.SevenStepInterpolation := by
  intro s mode
  have order := Nat.le_of_lt mode
  refine ⟨fun p hp => ?_, fun c c' low le high => lerp7_antitone low le high order⟩
  obtain ⟨low, high⟩ := code_of_mem_lerp7Rows p hp
  exact ⟨_, exec_lerp7Rows s p hp, toNat_lerp7 low high _ _, lerp7_between low high order⟩

/-- Settles O43: the weights `6 - code` and `code - 1` sum to 5, and a higher code moves weight to A1. -/
theorem fiveStepInterpolation : Obligations.FiveStepInterpolation := by
  intro s order
  refine ⟨fun p hp => ?_, fun c c' low le high => lerp5_monotone low le high order⟩
  obtain ⟨low, high⟩ := code_of_mem_lerp5Rows p hp
  exact ⟨_, exec_lerp5Rows s p hp, toNat_lerp5 low high _ _, lerp5_between low high order⟩

/-- Settles O48: the weights of each mix sum to 3, channel by channel. -/
theorem colourEndpointsAndMixes : Obligations.ColourEndpointsAndMixes := by
  intro s
  refine ⟨rfl, rfl, ?mixes⟩
  simp only [List.forall_mem_cons]
  refine ⟨⟨_, rfl, ?_, ?_, ?_⟩, ⟨_, rfl, ?_, ?_, ?_⟩, List.forall_mem_nil _⟩
  all_goals exact toNat_mixChannel rfl _ _

/-- Settles O49: the two codes are the table slices, and what they select computes AlphaOf and ColourOf. -/
theorem texelCombinesSelectedOperations : Obligations.TexelCombinesSelectedOperations := by
  intro t s
  obtain ⟨ia, decodesAlpha, alpha⟩ := alphaSelector_computes_alphaOf (alphaCode s.latches t.toNat) s
  obtain ⟨ic, decodesColour, colour⟩ := colourSelector_computes_colourOf (colourCode s.latches t.toNat) s
  rw [alphaCode_eq_slice] at decodesAlpha
  rw [colourCode_eq_slice] at decodesColour
  exact ⟨ia, ic, _, _, decodesAlpha, decodesColour, alpha, colour, exec_bc3Texel t s⟩

/-- Settles O50: the tile is the list of the parsed block's texels in texel order. -/
theorem blockDecodesSixteenTexels : Obligations.BlockDecodesSixteenTexels := by
  intro v s
  exact ⟨_, _, exec_blkParse v s, exec_bc3Block v s, length_tileOf _,
    fun t => ⟨_, exec_bc3Texel t _, getElem?_tileOf _ t.isLt⟩⟩

end Machine
end Sys2Proof
end

section
/-! The unpacker (43_unpacker.md): the channel's shift as the index of the lowest set bit of its mask, the fetch that a
bit count and two coordinate words select, UNP.PIXEL over a fetched pixel, and the statements assembled from them. -/

namespace Sys2Proof

/-! ### Words after each other in a request -/

theorem leNat_append (xs ys : List Byte) : leNat (xs ++ ys) = leNat xs + 256 ^ xs.length * leNat ys := by
  induction xs with
  | nil => simp [leNat]
  | cons x xs ih =>
    rw [List.cons_append, leNat, ih, leNat, List.length_cons, Nat.pow_succ]
    ring

theorem leNat_leBytes_word (w : Word) : leNat (leBytes 4 w.toNat) = w.toNat := by
  rw [leNat_leBytes]
  exact Nat.mod_eq_of_lt w.isLt

/-- The three operand words of a bit count's request lie 32 bits apart. -/
theorem leNat_threeWords (n x y : Word) :
    leNat (leBytes 4 n.toNat ++ leBytes 4 x.toNat ++ leBytes 4 y.toNat) =
      n.toNat + 2 ^ 32 * x.toNat + 2 ^ 64 * y.toNat := by
  simp only [leNat_append, leNat_leBytes_word, List.length_append, length_leBytes]
  norm_num

theorem field_threeWords (n x y : Word) :
    field (n.toNat + 2 ^ 32 * x.toNat + 2 ^ 64 * y.toNat) 0 32 = n ∧
    field (n.toNat + 2 ^ 32 * x.toNat + 2 ^ 64 * y.toNat) 32 32 = x ∧
    field (n.toNat + 2 ^ 32 * x.toNat + 2 ^ 64 * y.toNat) 64 32 = y := by
  have hn := n.isLt
  have hx := x.isLt
  have hy := y.isLt
  refine ⟨?_, ?_, ?_⟩
  all_goals
    apply BitVec.eq_of_toNat_eq
    rw [toNat_field]
    omega

theorem decode_bitCount_words (n x y : Word) :
    decode ⟨.bitCount, leBytes 4 n.toNat ++ leBytes 4 x.toNat ++ leBytes 4 y.toNat⟩ =
      .ok (decodeBitCount (n.toNat + 2 ^ 32 * x.toNat + 2 ^ 64 * y.toNat)) := by
  rw [← leNat_threeWords]
  simp [decode, portBytes, decodeOperands]

namespace Machine

/-! ### UNP.CHAN (43_unpacker.md R166, R167) -/

theorem exec_unpChan (d : BitVec 64) (m : Word) (s : State) :
    exec (.unpChan d m) s = .next (setChan (channelOf d m) s) := rfl

theorem ctz32_eq_lowest {m : Word} {k : Nat} (isSet : m.getLsbD k = true)
    (lowest : ∀ j, j < k → m.getLsbD j = false) : ctz32 m = k := by
  have first : (List.range 32).find? (fun j => m.getLsbD j) = some k := by
    rw [List.find?_range_eq_some]
    exact ⟨isSet, List.mem_range.mpr (BitVec.lt_of_getLsbD isSet), fun j hj => by simp [lowest j hj]⟩
  rw [ctz32, first, Option.getD_some]

theorem channelOf_zeroMask (d : BitVec 64) : channelOf d 0#32 = 0#8 := if_pos rfl

theorem toNat_channelOf {m : Word} {k : Nat} (isSet : m.getLsbD k = true)
    (lowest : ∀ j, j < k → m.getLsbD j = false) (d : BitVec 64) :
    (channelOf d m).toNat = (d &&& m.setWidth 64).toNat / 2 ^ k % 256 := by
  have nonzero : m ≠ 0#32 := by
    rintro rfl
    simp at isSet
  have extended : (m.setWidth 64).toNat = m.toNat := BitVec.toNat_setWidth_of_le (by decide)
  rw [channelOf, if_neg nonzero, ctz32_eq_lowest isSet lowest, BitVec.toNat_ofNat, Nat.shiftRight_eq_div_pow,
    BitVec.toNat_and, extended]

/-! ### UNP.FETCH and UNP.PIXEL (43_unpacker.md R164, R168) -/

/-- With a legal bit count the row that format P selects is the fetch of that many bits at the two coordinates. -/
theorem exec_decodeBitCount {n x y : Word} {v : Nat}
    (fields : field v 0 32 = n ∧ field v 32 32 = x ∧ field v 64 32 = y)
    (legal : n.toNat ∈ [8, 16, 32, 64]) (s : State) :
    exec (decodeBitCount v) s = finish (fetchPixel s n.toNat x.toNat y.toNat) setD s := by
  obtain ⟨rfl, rfl, rfl⟩ := fields
  simp only [List.mem_cons, List.not_mem_nil, or_false] at legal
  rcases legal with bits | bits | bits | bits
  all_goals
    simp only [decodeBitCount, bits]
    rfl

theorem exec_unpPixel_of_fetched {x y : Word} {s : State} {d : BitVec 64}
    (fetched : fetchPixel s s.cfg.rgbBitCount.toNat x.toNat y.toNat = .ok d) :
    exec (.unpPixel x y) s = .next (setPixel (unpackPixel s.cfg d) s) := by
  have unpacked : rawPixel s x.toNat y.toNat = .ok (unpackPixel s.cfg d) := by rw [rawPixel, fetched]
  rw [exec, execUnpPixel, unpacked, finish]

/-! ### The statements -/

/-- Settles O54: the shift is by the index of the mask's lowest set bit. -/
theorem channelMasksShiftsTruncates : Obligations.ChannelMasksShiftsTruncates := by
  intro d m s
  refine ⟨_, exec_unpChan d m s, ?zeroMask, fun k isSet lowest => toNat_channelOf isSet lowest d⟩
  case zeroMask =>
    rintro rfl
    exact channelOf_zeroMask d

/-- Settles O55: the selected row and UNP.PIXEL run one fetch, whose value the four masks split. -/
theorem unpPixelUnpacksFourChannels : Obligations.UnpPixelUnpacksFourChannels := by
  intro x y i s sf decodes legal runs
  rw [decode_bitCount_words] at decodes
  injection decodes with row
  rw [← row, exec_decodeBitCount (field_threeWords _ x y) legal] at runs
  obtain ⟨d, fetched, rfl⟩ := finish_next runs
  exact ⟨_, _, _, _, exec_unpChan d _ s, exec_unpChan d _ s, exec_unpChan d _ s, exec_unpChan d _ s,
    exec_unpPixel_of_fetched fetched⟩

end Machine
end Sys2Proof
end

section
/-! The end of a surface (44_surface.md R183): RELEASE where it is served, and the statement assembled from it. -/

namespace Sys2Proof.Machine

/-! ### RELEASE -/

/-- Outside IDLE the command is served: it ends the surface, or takes note of the error. -/
theorem exec_release_served {s : State} (notIdle : isIdle s = false) : exec .release s = .next (releaseSurface s) := by
  simp [exec, execRelease, notIdle]

/-- The three fields of STATUS that RELEASE writes are written whole; PROTO and the bits above it stand. -/
theorem status_releaseSurface (s : State) :
    statusState (releaseSurface s).status = stIdle ∧ statusSurf (releaseSurface s).status = surfNone ∧
    statusErr (releaseSurface s).status = 0#4 ∧
    (releaseSurface s).status.extractLsb' 8 24 = s.status.extractLsb' 8 24 := by
  rw [releaseSurface_status]
  exact ⟨statusState_setOutcome .., statusSurf_setOutcome .., statusErr_setOutcome .., protoAndAbove_setOutcome ..⟩

theorem read_dst_releaseSurface (s : State) (a : Nat) : Memory.read (releaseSurface s).dst a = none := by
  rw [releaseSurface_dst, read_anyValue]

/-! ### The statement -/

/-- Settles O14: outside IDLE by the fields of `releaseSurface`; in IDLE RELEASE is one of the violations of R199. -/
theorem releaseReturnsToIdle : Obligations.ReleaseReturnsToIdle := by
  intro s
  refine ⟨fun notIdle => ?served, fun idle => exec_violationFrom (i := .release) idle⟩
  case served =>
    obtain ⟨state, surf, err, high⟩ := status_releaseSurface s
    exact ⟨_, exec_release_served notIdle, state, surf, err, high, read_dst_releaseSurface s,
      rfl, rfl, rfl, rfl, rfl, rfl, rfl, rfl, rfl, rfl⟩

end Sys2Proof.Machine
end

section
/-! What a protocol violation and every other instruction do to PROTO (60_exceptions.md R199): the ways STATUS is
written, one lemma for what any instruction but RESET does to it, and the statement assembled from them. -/

namespace Sys2Proof.Machine

/-! ### The ways STATUS is written -/

/-- The values STATUS can go to from `w` where the unit is not reset: left as it is, PROTO set, or STATE, SURF and ERR
written over it. -/
inductive StatusWrite (w : Word) : Word → Prop where
  | keep : StatusWrite w w
  | proto : StatusWrite w (setProto w)
  | outcome (st surf : BitVec 2) (err : BitVec 4) : StatusWrite w (setOutcome st surf err w)

/-- None of them clears PROTO. -/
theorem StatusWrite.proto_sticky {w w' : Word} (written : StatusWrite w w') (proto : statusProto w = true) :
    statusProto w' = true := by
  cases written with
  | keep => exact proto
  | proto => exact statusProto_setProto w
  | outcome st surf err => rw [statusProto_setOutcome, proto]

theorem statusWrite_raise (c : Cause) (info0 info1 : Word) (s : State) :
    StatusWrite s.status (raise c info0 info1 s).status := .outcome ..

theorem statusWrite_becomeReady (surf : BitVec 2) (s : State) :
    StatusWrite s.status (becomeReady surf s).status := .outcome ..

/-! ### The paths of DECODE and the rows that check -/

theorem statusWrite_rawPath (s : State) : StatusWrite s.status (rawPath s).status := by
  rcases rawPath_cases s with ⟨c, _, raised⟩ | ⟨_, ready⟩
  · rw [raised]
    exact statusWrite_raise ..
  · rw [ready]
    exact statusWrite_becomeReady ..

theorem status_imageRun {w h : Nat} {s t : State} (runs : imageRun w h s = .ok t) : t.status = s.status := by
  obtain ⟨_, _, rfl, _⟩ := imageRun_ok runs
  rfl

theorem statusWrite_bc3Path {s t : State} (runs : bc3Path s = .next t) : StatusWrite s.status t.status := by
  rcases bc3Path_next runs with ⟨c, _, rfl⟩ | ⟨_, s', image, rfl⟩
  · exact statusWrite_raise ..
  · rw [← status_imageRun image]
    exact statusWrite_becomeReady ..

theorem statusWrite_dispatchKind {k : Kind} {s t : State} (runs : dispatchKind k s = .next t) :
    StatusWrite s.status t.status := by
  cases k with
  | none =>
    obtain rfl := Host.Outcome.next.inj runs
    exact statusWrite_rawPath s
  | bc3 => exact statusWrite_bc3Path runs
  | bc1 | unsupported f =>
    obtain rfl := Host.Outcome.next.inj runs
    exact statusWrite_raise ..

theorem statusWrite_decode {s t : State} (idle : isIdle s = true) (runs : exec .decode s = .next t) :
    StatusWrite s.status t.status := by
  by_cases zero : s.cfg.width = 0#32 ∨ s.cfg.height = 0#32
  · rw [exec_decode_zeroDim idle zero] at runs
    obtain rfl := Host.Outcome.next.inj runs
    exact statusWrite_raise ..
  · obtain ⟨hw, hh⟩ := not_or.mp zero
    rw [exec_decode_dispatch idle hw hh] at runs
    exact statusWrite_dispatchKind runs

theorem statusWrite_bc3Image {w h : Word} {s t : State} (runs : exec (.bc3Image w h) s = .next t) :
    StatusWrite s.status t.status := by
  simp only [exec, execBc3Image] at runs
  split at runs
  case h_1 =>
    obtain rfl := Host.Outcome.next.inj runs
    exact statusWrite_raise ..
  case h_2 =>
    obtain ⟨_, image, rfl⟩ := finish_next runs
    rw [status_imageRun image]
    exact .keep

theorem statusWrite_unpCheck {w h g n : Word} {s t : State} (runs : exec (.unpCheck w h g n) s = .next t) :
    StatusWrite s.status t.status := by
  simp only [exec, execUnpCheck] at runs
  split at runs
  all_goals obtain rfl := Host.Outcome.next.inj runs
  case h_1 => exact statusWrite_raise ..
  case h_2 => exact .keep

/-! ### The commands that only read -/

/-- A register that can be read leaves STATUS, whether its content is defined or not. -/
theorem status_rdreg {a0 : Word} {s t : State} (number : a0.toNat ≤ 11) (runs : exec (.rdreg a0) s = .next t) :
    t.status = s.status := by
  by_cases defined : a0.toNat ≤ 9 ∨ errInfoDefined s = true
  · obtain ⟨v, reads⟩ := Option.isSome_iff_exists.mp (readReg_isSome number s)
    rw [exec_rdreg_defined reads defined] at runs
    obtain rfl := Host.Outcome.next.inj runs
    rfl
  · obtain ⟨above, info⟩ := not_or.mp defined
    rw [exec_rdreg_undefined (by omega) (by simpa using info)] at runs
    obtain rfl := Host.Outcome.next.inj runs
    rfl

/-- AT in READY leaves STATUS: out of bounds, on a materialised surface, on a lazy one. -/
theorem status_atXY {x y : Word} {s t : State} (ready : isReady s = true) (runs : exec (.atXY x y) s = .next t) :
    t.status = s.status := by
  simp only [exec, execAt, ready, Bool.not_true, Bool.false_eq_true, if_false] at runs
  split at runs
  · obtain rfl := Host.Outcome.next.inj runs
    rfl
  · split at runs
    · obtain rfl := Host.Outcome.next.inj runs
      rfl
    · obtain ⟨_, _, rfl⟩ := finish_next runs
      rfl

/-- RDDST on a materialised surface leaves STATUS: past the end, and inside. -/
theorem status_rddst {k : Word} {s t : State} (ready : isReady s = true) (stored : isMaterialised s = true)
    (runs : exec (.rddst k) s = .next t) : t.status = s.status := by
  simp only [exec, execRddst, ready, stored, Bool.not_true, Bool.or_self, Bool.false_eq_true, if_false] at runs
  split at runs
  all_goals
    obtain rfl := Host.Outcome.next.inj runs
    rfl

/-! ### Every instruction but RESET -/

/-- What any instruction but RESET does to STATUS: a violation sets PROTO, what is served writes an outcome or leaves
it. -/
theorem statusWrite_exec {i : Instr} {s t : State} (runs : exec i s = .next t) (notReset : i ≠ .reset) :
    StatusWrite s.status t.status := by
  by_cases violates : Violates s i
  case pos =>
    rw [exec_of_violates violates] at runs
    obtain rfl := Host.Outcome.next.inj runs
    exact .proto
  cases i with
  | reset => exact absurd rfl notReset
  | wrcfg a0 a1 =>
    obtain ⟨idle, number⟩ : isIdle s = true ∧ a0.toNat ≤ 8 := by simpa [Violates] using violates
    rw [exec_wrcfg_served idle number] at runs
    obtain rfl := Host.Outcome.next.inj runs
    exact .keep
  | rdreg a0 =>
    rw [status_rdreg (Nat.le_of_not_lt violates) runs]
    exact .keep
  | loadsrc n payload =>
    obtain ⟨idle, fits⟩ : isIdle s = true ∧ beyondCap s.srcCap n.toNat = false := by simpa [Violates] using violates
    rw [exec_loadsrc_served idle fits] at runs
    obtain rfl := Host.Outcome.next.inj runs
    exact .keep
  | decode => exact statusWrite_decode (by simpa [Violates] using violates) runs
  | atXY x y =>
    rw [status_atXY (by simpa [Violates] using violates) runs]
    exact .keep
  | rddst k =>
    obtain ⟨ready, stored⟩ : isReady s = true ∧ isMaterialised s = true := by simpa [Violates] using violates
    rw [status_rddst ready stored runs]
    exact .keep
  | release =>
    rw [exec_release_served (by simpa [Violates] using violates)] at runs
    obtain rfl := Host.Outcome.next.inj runs
    exact .outcome ..
  | reservedCmd cmd => exact absurd trivial violates
  | kindNone =>
    obtain rfl := Host.Outcome.next.inj runs
    exact statusWrite_rawPath s
  | kindBc3 => exact statusWrite_bc3Path runs
  | kindBc1 | kindUnsupported f | unpBadbits n =>
    obtain rfl := Host.Outcome.next.inj runs
    exact statusWrite_raise ..
  | bc3Image w h => exact statusWrite_bc3Image runs
  | unpCheck w h g n => exact statusWrite_unpCheck runs
  | texelPut x y p | unpFetch8 x y | unpFetch16 x y | unpFetch32 x y | unpFetch64 x y | unpPixel x y =>
    obtain ⟨_, _, rfl⟩ := finish_next runs
    exact .keep
  | _ =>
    obtain rfl := Host.Outcome.next.inj runs
    exact .keep

/-! ### The statement -/

/-- Settles O9: a violation is the one operation of R199, and no way of writing STATUS but RESET's clears PROTO. -/
theorem protocolViolationChangesOnlyProto : Obligations.ProtocolViolationChangesOnlyProto :=
  ⟨fun _ _ violates => exec_violationFrom violates,
    fun _ _ _ runs notReset proto => (statusWrite_exec runs notReset).proto_sticky proto⟩

end Sys2Proof.Machine
end

section
/-! The order of errors of DECODE (60_exceptions.md R198): the loop of BC3.IMAGE completes where its two checks pass
(42_bc3_image.md R146), each path reports the first condition that holds, and the statement assembled from them. -/

namespace Sys2Proof.Machine

/-! ### The loop of BC3.IMAGE completes -/

theorem putTexel_completes {cap : Option Nat} {w h : Nat} (fits : beyondCap cap (w * h) = false) (x y : Nat)
    (px : Pixel) (m : Memory) : ∃ m', putTexel cap w h x y px m = .ok m' := by
  by_cases hi : inside w h x y = true
  · have inCap : beyondCap cap (pixelNumber w x y + 1) = false := beyondCap_mono fits (pixelNumber_lt hi)
    exact ⟨_, by rw [putTexel, if_pos hi, memWriteDst, inCap, if_neg Bool.false_ne_true]⟩
  · exact ⟨m, if_neg hi⟩

theorem imageTexel_completes {cap : Option Nat} {w h : Nat} (fits : beyondCap cap (w * h) = false) (k : Work) (t : Nat) :
    ∃ k', imageTexel cap w h k t = .ok k' := by
  obtain ⟨m, put⟩ := putTexel_completes fits (4 * k.cursor.blockX + t % 4) (4 * k.cursor.blockY + t / 4)
    (texelOf k.latches (4 * (t / 4) + t % 4)) k.dst
  exact ⟨{ k with cursor := { k.cursor with texelI := t % 4, texelJ := t / 4 }, dst := m }, by
    simp only [imageTexel, put]⟩

theorem imageTexels_completes {cap : Option Nat} {w h : Nat} (fits : beyondCap cap (w * h) = false) (ts : List Nat)
    (k : Work) : ∃ k', imageTexels cap w h ts k = .ok k' := by
  induction ts generalizing k with
  | nil => exact ⟨k, rfl⟩
  | cons t ts ih =>
    obtain ⟨k₁, texel⟩ := imageTexel_completes fits k t
    obtain ⟨k₂, rest⟩ := ih k₁
    exact ⟨k₂, by simp only [imageTexels, texel, rest]⟩

/-- The sixteen bytes of a block of the grid lie inside the bytes the image needs (42_bc3_image.md R141, R142). -/
theorem blockOffset_add_le_bc3Need {w h : Nat} {c : Cursor} (hx : c.blockX < blockCount w)
    (hy : c.blockY < blockCount h) : blockOffset (blockCount w) c + Config.blockBytes ≤ bc3Need w h := by
  have number : c.blockY * blockCount w + c.blockX + 1 ≤ blockCount w * blockCount h :=
    pixelNumber_lt (by simp [inside, hx, hy])
  calc blockOffset (blockCount w) c + Config.blockBytes
      = (c.blockY * blockCount w + c.blockX + 1) * Config.blockBytes := by rw [blockOffset, Nat.succ_mul]
    _ ≤ bc3Need w h := Nat.mul_le_mul_right _ number

theorem imageBlock_completes {s : State} {w h : Nat} (loaded : SrcLoaded s) (enough : bc3Need w h ≤ s.srcLen)
    (fits : beyondCap s.dstCap (w * h) = false) {bx byy : Nat} (hx : bx < blockCount w) (hy : byy < blockCount h)
    (k : Work) : ∃ k', imageBlock s w h k bx byy = .ok k' := by
  obtain ⟨_, listed, _⟩ := loaded
  have within : blockOffset (blockCount w) ⟨bx, byy, 0, 0⟩ + Config.blockBytes ≤ s.srcLen :=
    Nat.le_trans (blockOffset_add_le_bc3Need hx hy) enough
  obtain ⟨bytes, fetched, _, _⟩ := memReadSrc_inside within (fun a => (listed a).mpr)
  obtain ⟨k', texels⟩ := imageTexels_completes fits (List.range 16)
    { k with cursor := ⟨bx, byy, 0, 0⟩, latches := parseBlock (BitVec.ofNat 128 (leNat bytes)) }
  exact ⟨k', by simp only [imageBlock, fetched, texels]⟩

theorem imageBlocks_completes {s : State} {w h : Nat} (loaded : SrcLoaded s) (enough : bc3Need w h ≤ s.srcLen)
    (fits : beyondCap s.dstCap (w * h) = false) (bs : List (Nat × Nat))
    (grid : ∀ b ∈ bs, b.1 < blockCount w ∧ b.2 < blockCount h) (k : Work) :
    ∃ k', imageBlocks s w h bs k = .ok k' := by
  induction bs generalizing k with
  | nil => exact ⟨k, rfl⟩
  | cons b bs ih =>
    obtain ⟨bx, byy⟩ := b
    obtain ⟨⟨hx, hy⟩, gridRest⟩ := List.forall_mem_cons.mp grid
    obtain ⟨k₁, block⟩ := imageBlock_completes loaded enough fits hx hy k
    obtain ⟨k₂, rest⟩ := ih gridRest k₁
    exact ⟨k₂, by simp only [imageBlocks, block, rest]⟩

theorem mem_rowMajor {nx ny : Nat} {b : Nat × Nat} : b ∈ rowMajor nx ny ↔ b.1 < nx ∧ b.2 < ny := by
  obtain ⟨x, y⟩ := b
  simp [rowMajor, and_comm]

/-- Where BC3.IMAGE's checks pass over a loaded SRC, its loop meets no read outside SRC and no write outside DST. -/
theorem imageRun_completes {s : State} {w h : Nat} (loaded : SrcLoaded s) (checked : imageCheck w h s = none) :
    ∃ s', imageRun w h s = .ok s' := by
  obtain ⟨enough, fits⟩ := imageCheck_none.mp checked
  obtain ⟨k, blocks⟩ := imageBlocks_completes loaded enough fits _ (fun _ => mem_rowMajor.mp)
    ⟨s.latches, ⟨0, 0, 0, 0⟩, s.dst⟩
  exact ⟨_, by rw [imageRun, blocks]⟩

/-! ### What a DECODE reports -/

/-- The code of STATUS.ERR for the first error or refusal, 0 for none (60_exceptions.md R190). -/
def errCode : Option Cause → BitVec 4
  | none => 0#4
  | some c => causeCode c

@[simp] theorem errCode_none : errCode none = 0#4 := rfl

@[simp] theorem errCode_some (c : Cause) : errCode (some c) = causeCode c := rfl

theorem causeCode_ne_zero (c : Cause) : causeCode c ≠ 0#4 := by cases c <;> decide

/-- `t` reports the first error or refusal, or none: ERR its code, STATE ERROR, or READY with no error. -/
def Reports (first : Option Cause) (t : State) : Prop :=
  statusErr t.status = errCode first ∧ statusState t.status = if first = none then stReady else stError

theorem reports_raise (c : Cause) (info0 info1 : Word) (s : State) : Reports (some c) (raise c info0 info1 s) := by
  simp [Reports]

theorem reports_becomeReady (surf : BitVec 2) (s : State) : Reports none (becomeReady surf s) := by
  simp [Reports]

/-- ERR tells READY from ERROR. -/
theorem Reports.err_iff_state {first : Option Cause} {t : State} (reports : Reports first t) :
    (statusErr t.status = 0#4 ↔ statusState t.status = stReady) ∧
    (statusErr t.status ≠ 0#4 ↔ statusState t.status = stError) := by
  obtain ⟨err, state⟩ := reports
  rw [err, state]
  cases first with
  | none => decide
  | some c => simp [causeCode_ne_zero c, stReady, stError]

/-! ### Each path reports the first condition that holds -/

theorem reports_rawPath (s : State) :
    Reports (rawCheck s.cfg.width s.cfg.height s.cfg.pfFlags s.cfg.rgbBitCount s.srcLen) (rawPath s) := by
  rcases rawPath_cases s with ⟨c, check, raised⟩ | ⟨check, ready⟩
  · rw [check, raised]
    exact reports_raise ..
  · rw [check, ready]
    exact reports_becomeReady ..

theorem bc3Path_reports {s : State} (loaded : SrcLoaded s) :
    ∃ t, bc3Path s = .next t ∧ Reports (imageCheck s.cfg.width.toNat s.cfg.height.toNat s) t := by
  cases check : imageCheck s.cfg.width.toNat s.cfg.height.toNat s with
  | some c => exact ⟨raisePlain c s, by rw [bc3Path, check], reports_raise ..⟩
  | none =>
    obtain ⟨s', image⟩ := imageRun_completes loaded check
    exact ⟨_, by rw [bc3Path, check, image], reports_becomeReady ..⟩

/-- The first error or refusal on the path of a kind (40_dispatch.md R96). -/
def kindError (s : State) : Kind → Option Cause
  | .none => rawCheck s.cfg.width s.cfg.height s.cfg.pfFlags s.cfg.rgbBitCount s.srcLen
  | .bc1 => some .refBc1External
  | .bc3 => imageCheck s.cfg.width.toNat s.cfg.height.toNat s
  | .unsupported _ => some .unsupportedFormatError

theorem dispatchKind_reports {s : State} (loaded : SrcLoaded s) (k : Kind) :
    ∃ t, dispatchKind k s = .next t ∧ Reports (kindError s k) t := by
  cases k with
  | none => exact ⟨_, rfl, reports_rawPath s⟩
  | bc3 => exact bc3Path_reports loaded
  | bc1 | unsupported f => exact ⟨_, rfl, reports_raise ..⟩

/-- The first error or refusal of a DECODE: the dimensions, then the path of the tag. -/
def firstError (s : State) : Option Cause :=
  if s.cfg.width = 0#32 ∨ s.cfg.height = 0#32 then some .refZeroDim else kindError s (kindOf s.cfg.fourcc)

theorem decode_reports_firstError {s : State} (idle : isIdle s = true) (loaded : SrcLoaded s) :
    ∃ t, exec .decode s = .next t ∧ Reports (firstError s) t := by
  by_cases zero : s.cfg.width = 0#32 ∨ s.cfg.height = 0#32
  · rw [firstError, if_pos zero]
    exact ⟨_, exec_decode_zeroDim idle zero, reports_raise ..⟩
  · obtain ⟨hw, hh⟩ := not_or.mp zero
    rw [firstError, if_neg zero, exec_decode_dispatch idle hw hh]
    exact dispatchKind_reports loaded _

/-! ### The checks as the codes they lead to -/

theorem errCode_imageCheck (w h : Nat) (s : State) :
    errCode (imageCheck w h s) =
      if s.srcLen < ((w + 3) / 4) * ((h + 3) / 4) * 16 then 4#4
      else if beyondCap s.dstCap (w * h) = true then 10#4 else 0#4 := by
  simp only [imageCheck, apply_ite errCode]
  rfl

/-- The required flags are bit 0, ALPHAPIXELS, and bit 6, RGB (10_state.md R15). -/
theorem getLsbD_requiredFlags {i : Nat} (hi : i < 32) :
    Config.requiredFlags.getLsbD i = (decide (i = 0) || decide (i = 6)) := by
  revert i
  decide

theorem flags_present_iff (g : Word) :
    g &&& Config.requiredFlags = Config.requiredFlags ↔ g.getLsbD 0 = true ∧ g.getLsbD 6 = true := by
  constructor
  · intro present
    have carried {i : Nat} (required : Config.requiredFlags.getLsbD i = true) : g.getLsbD i = true := by
      rw [← present, BitVec.getLsbD_and, Bool.and_eq_true] at required
      exact required.left
    exact ⟨carried rfl, carried rfl⟩
  · rintro ⟨bit0, bit6⟩
    apply BitVec.eq_of_getLsbD_eq
    intro i hi
    rw [BitVec.getLsbD_and, getLsbD_requiredFlags hi]
    by_cases h0 : i = 0
    · simp [h0, bit0]
    by_cases h6 : i = 6
    · simp [h6, bit6]
    · simp [h0, h6]

theorem flags_missing_iff (g : Word) :
    g &&& Config.requiredFlags ≠ Config.requiredFlags ↔ g.getLsbD 0 = false ∨ g.getLsbD 6 = false := by
  rw [Ne, flags_present_iff, not_and_or, Bool.not_eq_true, Bool.not_eq_true]

/-- With a legal bit count a row has no padding (43_unpacker.md R162). -/
theorem rawPitch_legal {bits : Nat} (legal : bits ∈ Config.bitCounts) (w : Nat) : rawPitch w bits = w * (bits / 8) := by
  simp only [Config.bitCounts, List.mem_cons, List.not_mem_nil, or_false] at legal
  rcases legal with rfl | rfl | rfl | rfl
  all_goals
    simp only [rawPitch, ceilDiv]
    omega

theorem not_mem_bitCounts_iff {bits : Nat} :
    bits ∉ Config.bitCounts ↔ bits ≠ 8 ∧ bits ≠ 16 ∧ bits ≠ 32 ∧ bits ≠ 64 := by
  simp [Config.bitCounts]

theorem errCode_rawCheck (w h g n : Word) (len : Nat) :
    errCode (rawCheck w h g n len) =
      if g.getLsbD 0 = false ∨ g.getLsbD 6 = false then 3#4
      else if n.toNat ≠ 8 ∧ n.toNat ≠ 16 ∧ n.toNat ≠ 32 ∧ n.toNat ≠ 64 then 3#4
      else if len < w.toNat * (n.toNat / 8) * h.toNat then 1#4 else 0#4 := by
  simp only [← flags_missing_iff, ← not_mem_bitCounts_iff]
  by_cases flags : g &&& Config.requiredFlags ≠ Config.requiredFlags
  · simp [rawCheck, flags, causeCode]
  by_cases legal : n.toNat ∈ Config.bitCounts
  · simp only [rawCheck, flags, legal, ← rawPitch_legal legal, apply_ite errCode]
    simp [legal, causeCode]
  · simp [rawCheck, flags, legal, causeCode]

theorem errCode_kindError (s : State) :
    errCode (kindError s (kindOf s.cfg.fourcc)) =
      if s.cfg.fourcc = Config.tagDxt5 then errCode (imageCheck s.cfg.width.toNat s.cfg.height.toNat s)
      else if s.cfg.fourcc = Config.tagDxt1 then 8#4
      else if s.cfg.fourcc = Config.tagNone then
        errCode (rawCheck s.cfg.width s.cfg.height s.cfg.pfFlags s.cfg.rgbBitCount s.srcLen)
      else 3#4 := by
  by_cases dxt5 : s.cfg.fourcc = Config.tagDxt5
  · rw [if_pos dxt5, dxt5]
    rfl
  by_cases dxt1 : s.cfg.fourcc = Config.tagDxt1
  · rw [if_neg dxt5, if_pos dxt1, dxt1]
    rfl
  by_cases untagged : s.cfg.fourcc = Config.tagNone
  · rw [if_neg dxt5, if_neg dxt1, if_pos untagged, untagged]
    rfl
  · rw [if_neg dxt5, if_neg dxt1, if_neg untagged, kindOf_unsupported untagged dxt1 dxt5]
    rfl

theorem zeroDim_iff (s : State) :
    s.cfg.width = 0#32 ∨ s.cfg.height = 0#32 ↔ s.cfg.width.toNat = 0 ∨ s.cfg.height.toNat = 0 := by
  simp only [BitVec.toNat_eq, BitVec.toNat_ofNat, Nat.zero_mod]

/-! ### The statement -/

/-- Settles O23: DECODE reports the first error, whose code is the chain's, test by test. -/
theorem decodeReportsFirstError : Obligations.DecodeReportsFirstError := by
  intro s idle loaded
  obtain ⟨t, runs, reports⟩ := decode_reports_firstError idle loaded
  refine ⟨t, runs, ?code, reports.err_iff_state⟩
  case code =>
    obtain ⟨err, _⟩ := reports
    rw [err, firstError, apply_ite errCode, errCode_kindError, errCode_imageCheck, errCode_rawCheck]
    simp only [zeroDim_iff]
    rfl

end Sys2Proof.Machine
end

section
/-! Decoding against encoding (30_encoding.md): the fields of an encoded word read back, the rows of the command port by
their code, and the statements about the decoder. -/

namespace Sys2Proof

/-! ### A word written at a port reads back -/

/-- The fields of a command word `cmd ++ a0 ++ a1` (30_encoding.md R84). -/
theorem commandWord_fields (cmd : Nat) (a0 a1 : Word) :
    (cmd * 2 ^ 64 + a0.toNat * 2 ^ 32 + a1.toNat) / 2 ^ 64 = cmd ∧
    field (cmd * 2 ^ 64 + a0.toNat * 2 ^ 32 + a1.toNat) 32 32 = a0 ∧
    field (cmd * 2 ^ 64 + a0.toNat * 2 ^ 32 + a1.toNat) 0 32 = a1 := by
  have h0 := a0.isLt
  have h1 := a1.isLt
  refine ⟨by omega, BitVec.eq_of_toNat_eq ?_, BitVec.eq_of_toNat_eq ?_⟩
  all_goals
    rw [toNat_field]
    omega

/-- The instruction of a command word by its code: the rows of format H (30_encoding.md R84). -/
def commandRow (cmd : Nat) (a0 a1 : Word) (payload : List Byte) : Except Reject Instr :=
  match cmd with
  | 0 => plainCommand payload .reset
  | 1 => plainCommand payload (.wrcfg a0 a1)
  | 2 => plainCommand payload (.rdreg a0)
  | 3 => if payload.length = a0.toNat then .ok (.loadsrc a0 payload) else .error .wrongLength
  | 4 => plainCommand payload .decode
  | 5 => plainCommand payload (.atXY a0 a1)
  | 6 => plainCommand payload (.rddst a0)
  | 7 => plainCommand payload .release
  | _ => plainCommand payload (.reservedCmd (BitVec.ofNat 4 cmd))

theorem commandRow_reserved {cmd : Nat} (reserved : 8 ≤ cmd) (a0 a1 : Word) (payload : List Byte) :
    commandRow cmd a0 a1 payload = plainCommand payload (.reservedCmd (BitVec.ofNat 4 cmd)) := by
  unfold commandRow
  split
  case h_9 => rfl
  all_goals omega

/-- A request at the command port is its code's row over its argument fields and the bytes after the word. -/
theorem decodeCommand_eq_commandRow {bytes : List Byte} (long : ¬ bytes.length < 9)
    (narrow : ¬ 2 ^ 68 ≤ leNat (bytes.take 9)) :
    decodeCommand bytes =
      commandRow (leNat (bytes.take 9) / 2 ^ 64) (field (leNat (bytes.take 9)) 32 32)
        (field (leNat (bytes.take 9)) 0 32) (bytes.drop 9) := by
  rw [decodeCommand, if_neg long]
  simp only [if_neg narrow]
  rfl

theorem decode_commandWord {cmd : Nat} (code : cmd < 16) (a0 a1 : Word) (payload : List Byte) :
    decode (commandWord cmd a0 a1 payload) = commandRow cmd a0 a1 payload := by
  have h0 := a0.isLt
  have h1 := a1.isLt
  obtain ⟨top, arg0, arg1⟩ := commandWord_fields cmd a0 a1
  have word : leNat ((leBytes 9 (cmd * 2 ^ 64 + a0.toNat * 2 ^ 32 + a1.toNat) ++ payload).take 9) =
      cmd * 2 ^ 64 + a0.toNat * 2 ^ 32 + a1.toNat := by
    rw [List.take_left' (length_leBytes ..), leNat_leBytes, Nat.mod_eq_of_lt (by omega)]
  have rest : (leBytes 9 (cmd * 2 ^ 64 + a0.toNat * 2 ^ 32 + a1.toNat) ++ payload).drop 9 = payload :=
    List.drop_left' (length_leBytes ..)
  rw [decode, commandWord, if_pos rfl, decodeCommand_eq_commandRow (by simp) (by rw [word]; omega), word, rest, top, arg0,
    arg1]

theorem decode_wordAt {p : Port} {v : Nat} (notCommand : p ≠ .command) (narrow : v < 256 ^ portBytes p) :
    decode (wordAt p v) = decodeOperands p v := by
  simp [decode, wordAt, notCommand, leNat_leBytes, Nat.mod_eq_of_lt narrow]

theorem field_toNat {n : Nat} (v : BitVec n) : field v.toNat 0 n = v := by simp [field]

/-- Two operands laid after each other are read apart. -/
theorem field_twoWords {n m : Nat} (x : BitVec n) (y : BitVec m) :
    field (x.toNat + y.toNat * 2 ^ n) 0 n = x ∧ field (x.toNat + y.toNat * 2 ^ n) n m = y := by
  refine ⟨BitVec.eq_of_toNat_eq ?_, BitVec.eq_of_toNat_eq ?_⟩
  · rw [toNat_field, Nat.pow_zero, Nat.div_one, Nat.add_mul_mod_self_right, Nat.mod_eq_of_lt x.isLt]
  · rw [toNat_field, Nat.add_mul_div_right _ _ (Nat.two_pow_pos n), Nat.div_eq_of_lt x.isLt, Nat.zero_add,
      Nat.mod_eq_of_lt y.isLt]

/-- The instruction of a bit count and two coordinates: the rows of format P (30_encoding.md R75). -/
def bitCountRow (n x y : Word) : Instr :=
  match n.toNat with
  | 8 => .unpFetch8 x y
  | 16 => .unpFetch16 x y
  | 32 => .unpFetch32 x y
  | 64 => .unpFetch64 x y
  | _ => .unpBadbits n

theorem decodeBitCount_eq_bitCountRow (v : Nat) :
    decodeBitCount v = bitCountRow (field v 0 32) (field v 32 32) (field v 64 32) := rfl

theorem decode_bitCountWord (n x y : Word) : decode (bitCountWord n.toNat x y) = .ok (bitCountRow n x y) := by
  have hn := n.isLt
  have hx := x.isLt
  have hy := y.isLt
  have narrow : n.toNat + x.toNat * 2 ^ 32 + y.toNat * 2 ^ 64 < 256 ^ portBytes .bitCount := by
    simp only [portBytes]
    omega
  obtain ⟨count, across, down⟩ := field_threeWords n x y
  rw [bitCountWord, decode_wordAt (by decide) narrow, Nat.mul_comm x.toNat, Nat.mul_comm y.toNat, decodeOperands,
    decodeBitCount_eq_bitCountRow, count, across, down]

theorem bitCountRow_illegal {n : Word} (illegal : n.toNat ∉ Config.bitCounts) (x y : Word) :
    bitCountRow n x y = .unpBadbits n := by
  obtain ⟨h8, h16, h32, h64⟩ := Machine.not_mem_bitCounts_iff.mp illegal
  unfold bitCountRow
  split
  case h_5 => rfl
  all_goals contradiction

theorem decodeTag_unsupported {f : Word} (hnone : f ≠ Config.tagNone) (dxt1 : f ≠ Config.tagDxt1)
    (dxt5 : f ≠ Config.tagDxt5) : decodeTag f = .kindUnsupported f := by
  simp [decodeTag, hnone, dxt1, dxt5]

theorem decodeTexelNumber_toNat (t : BitVec 4) (i : BitVec 4 → Instr) : decodeTexelNumber t.toNat i = .ok (i t) := by
  rw [decodeTexelNumber, if_pos t.isLt, field_toNat]

/-- A port whose word is one operand of the port's width. -/
theorem decode_oneWord {p : Port} {n : Nat} (notCommand : p ≠ .command) (v : BitVec n)
    (width : 2 ^ n ≤ 256 ^ portBytes p) : decode (wordAt p v.toNat) = decodeOperands p v.toNat :=
  decode_wordAt notCommand (Nat.lt_of_lt_of_le v.isLt width)

/-- A port whose word is two operands. -/
theorem decode_twoWords {p : Port} {n m : Nat} (notCommand : p ≠ .command) (x : BitVec n) (y : BitVec m)
    (width : 2 ^ (n + m) ≤ 256 ^ portBytes p) :
    decode (wordAt p (x.toNat + y.toNat * 2 ^ n)) = decodeOperands p (x.toNat + y.toNat * 2 ^ n) := by
  refine decode_wordAt notCommand (Nat.lt_of_lt_of_le ?_ width)
  calc x.toNat + y.toNat * 2 ^ n < 2 ^ n + y.toNat * 2 ^ n := Nat.add_lt_add_right x.isLt _
    _ = (y.toNat + 1) * 2 ^ n := by ring
    _ ≤ 2 ^ m * 2 ^ n := Nat.mul_le_mul_right _ y.isLt
    _ = 2 ^ (n + m) := by rw [Nat.pow_add, Nat.mul_comm]

theorem decode_texelPut (x y p : Word) : decode (encode (.texelPut x y p)) = .ok (.texelPut x y p) := by
  have hx := x.isLt
  have hy := y.isLt
  have hp := p.isLt
  have narrow : x.toNat + y.toNat * 2 ^ 32 + p.toNat * 2 ^ 64 < 256 ^ portBytes .texelPut := by
    simp only [portBytes]
    omega
  obtain ⟨first, second, third⟩ := field_threeWords x y p
  rw [encode, decode_wordAt (by decide) narrow, Nat.mul_comm y.toNat, Nat.mul_comm p.toNat, decodeOperands, first, second,
    third]

theorem field_fourWords (w h g n : Word) :
    field (w.toNat + h.toNat * 2 ^ 32 + g.toNat * 2 ^ 64 + n.toNat * 2 ^ 96) 0 32 = w ∧
    field (w.toNat + h.toNat * 2 ^ 32 + g.toNat * 2 ^ 64 + n.toNat * 2 ^ 96) 32 32 = h ∧
    field (w.toNat + h.toNat * 2 ^ 32 + g.toNat * 2 ^ 64 + n.toNat * 2 ^ 96) 64 32 = g ∧
    field (w.toNat + h.toNat * 2 ^ 32 + g.toNat * 2 ^ 64 + n.toNat * 2 ^ 96) 96 32 = n := by
  have hw := w.isLt
  have hh := h.isLt
  have hg := g.isLt
  have hn := n.isLt
  refine ⟨?_, ?_, ?_, ?_⟩
  all_goals
    apply BitVec.eq_of_toNat_eq
    rw [toNat_field]
    omega

theorem decode_unpCheck (w h g n : Word) : decode (encode (.unpCheck w h g n)) = .ok (.unpCheck w h g n) := by
  have hw := w.isLt
  have hh := h.isLt
  have hg := g.isLt
  have hn := n.isLt
  have narrow : w.toNat + h.toNat * 2 ^ 32 + g.toNat * 2 ^ 64 + n.toNat * 2 ^ 96 < 256 ^ portBytes .unpCheck := by
    simp only [portBytes]
    omega
  obtain ⟨first, second, third, fourth⟩ := field_fourWords w h g n
  rw [encode, decode_wordAt (by decide) narrow, decodeOperands, first, second, third, fourth]

/-! ### The decoder's answers are well formed -/

theorem plainCommand_ok {payload : List Byte} {i j : Instr} (h : plainCommand payload i = .ok j) : j = i := by
  simp only [plainCommand] at h
  split at h
  · exact (Except.ok.inj h).symm
  · cases h

theorem wellFormed_reservedCmd {cmd : Nat} (code : cmd < 16) (reserved : 8 ≤ cmd) :
    Instr.wellFormed (.reservedCmd (BitVec.ofNat 4 cmd)) = true := by
  simpa [Instr.wellFormed, Nat.mod_eq_of_lt code] using reserved

/-- Codes 0 to 7 have rows of their own, of which LOADSRC alone has a check; from 8 on the code is reserved. -/
theorem wellFormed_commandRow {cmd : Nat} (code : cmd < 16) {a0 a1 : Word} {payload : List Byte} {i : Instr}
    (row : commandRow cmd a0 a1 payload = .ok i) : Instr.wellFormed i = true := by
  by_cases reserved : 8 ≤ cmd
  · rw [commandRow_reserved reserved] at row
    obtain rfl := plainCommand_ok row
    exact wellFormed_reservedCmd code reserved
  by_cases load : cmd = 3
  · subst load
    by_cases count : payload.length = a0.toNat
    · obtain rfl := Except.ok.inj ((if_pos count).symm.trans row)
      exact beq_iff_eq.mpr count
    · cases (if_neg count).symm.trans row
  · have named : cmd = 0 ∨ cmd = 1 ∨ cmd = 2 ∨ cmd = 4 ∨ cmd = 5 ∨ cmd = 6 ∨ cmd = 7 := by omega
    rcases named with rfl | rfl | rfl | rfl | rfl | rfl | rfl
    all_goals
      obtain rfl := plainCommand_ok row
      rfl

theorem wellFormed_decodeCommand {bytes : List Byte} {i : Instr} (decodes : decodeCommand bytes = .ok i) :
    Instr.wellFormed i = true := by
  by_cases long : bytes.length < 9
  · rw [decodeCommand, if_pos long] at decodes
    cases decodes
  by_cases wide : 2 ^ 68 ≤ leNat (bytes.take 9)
  · rw [decodeCommand, if_neg long] at decodes
    simp only [if_pos wide] at decodes
    cases decodes
  · rw [decodeCommand_eq_commandRow long wide] at decodes
    exact wellFormed_commandRow (by omega) decodes

theorem wellFormed_decodeTag (f : Word) : Instr.wellFormed (decodeTag f) = true := by
  by_cases hnone : f = Config.tagNone
  · simp [decodeTag, hnone, Instr.wellFormed]
  by_cases dxt1 : f = Config.tagDxt1
  · subst dxt1
    rfl
  by_cases dxt5 : f = Config.tagDxt5
  · subst dxt5
    rfl
  · rw [decodeTag_unsupported hnone dxt1 dxt5]
    simp [Instr.wellFormed, hnone, dxt1, dxt5]

theorem wellFormed_bitCountRow (n x y : Word) : Instr.wellFormed (bitCountRow n x y) = true := by
  by_cases legal : n.toNat ∈ Config.bitCounts
  · simp only [Config.bitCounts, List.mem_cons, List.not_mem_nil, or_false] at legal
    rcases legal with bits | bits | bits | bits
    all_goals simp [bitCountRow, bits, Instr.wellFormed]
  · rw [bitCountRow_illegal legal]
    simpa [Instr.wellFormed] using legal

/-- A port that answers one row for every word it takes has no check to fail. -/
theorem wellFormed_decodeTexelNumber {v : Nat} {row : BitVec 4 → Instr} (free : ∀ t, Instr.wellFormed (row t) = true)
    {i : Instr} (decodes : decodeTexelNumber v row = .ok i) : Instr.wellFormed i = true := by
  simp only [decodeTexelNumber] at decodes
  split at decodes
  · obtain rfl := Except.ok.inj decodes
    exact free _
  · cases decodes

theorem wellFormed_decodeAlphaSelector {v : Nat} {i : Instr} (decodes : decodeAlphaSelector v = .ok i) :
    Instr.wellFormed i = true := by
  unfold decodeAlphaSelector at decodes
  split at decodes
  case h_17 => cases decodes
  all_goals
    obtain rfl := Except.ok.inj decodes
    rfl

theorem wellFormed_decodeColourCode {v : Nat} {i : Instr} (decodes : decodeColourCode v = .ok i) :
    Instr.wellFormed i = true := by
  unfold decodeColourCode at decodes
  split at decodes
  case h_5 => cases decodes
  all_goals
    obtain rfl := Except.ok.inj decodes
    rfl

theorem wellFormed_decodeOperands {p : Port} {v : Nat} {i : Instr} (decodes : decodeOperands p v = .ok i) :
    Instr.wellFormed i = true := by
  cases p with
  | command => cases decodes
  | tag =>
    obtain rfl := Except.ok.inj decodes
    exact wellFormed_decodeTag _
  | alphaSelector => exact wellFormed_decodeAlphaSelector decodes
  | colourCode => exact wellFormed_decodeColourCode decodes
  | bitCount =>
    obtain rfl := Except.ok.inj decodes
    exact wellFormed_bitCountRow _ _ _
  | alphaSel | colourSel | texel => exact wellFormed_decodeTexelNumber (fun _ => rfl) decodes
  | exp565 | block | parse | kindDecode | texelPut | image | unpCheck | unpChan | unpPixel =>
    obtain rfl := Except.ok.inj decodes
    rfl

/-! ### The statements -/

/-- Settles O4, port by port: the rows with a check are reached only where it holds. -/
theorem decodedInstructionIsWellFormed : Obligations.DecodedInstructionIsWellFormed := by
  intro r i decodes
  by_cases command : r.port = .command
  · rw [decode, if_pos command] at decodes
    exact wellFormed_decodeCommand decodes
  by_cases width : r.bytes.length = portBytes r.port
  · rw [decode, if_neg command, if_pos width] at decodes
    exact wellFormed_decodeOperands decodes
  · rw [decode, if_neg command, if_neg width] at decodes
    cases decodes

/-- Settles O3, row by row: the fields of a word are the operands laid there, and the check of a row with one keeps the
other rows from its word. -/
theorem encodingRoundTrips : Obligations.EncodingRoundTrips := by
  intro i wf
  cases i with
  | reset | wrcfg | rdreg | decode | atXY | rddst | release => exact decode_commandWord (by decide) _ _ _
  | loadsrc n payload =>
    exact (decode_commandWord (by decide) _ _ _).trans (if_pos (beq_iff_eq.mp wf))
  | reservedCmd cmd =>
    rw [encode, decode_commandWord cmd.isLt, commandRow_reserved (of_decide_eq_true wf), plainCommand, if_pos rfl,
      BitVec.ofNat_toNat, BitVec.setWidth_eq]
  | kindNone | kindBc1 | kindBc3 => rfl
  | kindUnsupported f =>
    obtain ⟨⟨hnone, dxt1⟩, dxt5⟩ : (f ≠ Config.tagNone ∧ f ≠ Config.tagDxt1) ∧ f ≠ Config.tagDxt5 := by
      simpa [Instr.wellFormed] using wf
    rw [encode, decode_oneWord (by decide) f (by decide), decodeOperands, field_toNat,
      decodeTag_unsupported hnone dxt1 dxt5]
  | aEnd0 | aEnd1 | a7Lerp2 | a7Lerp3 | a7Lerp4 | a7Lerp5 | a7Lerp6 | a7Lerp7 | a5Lerp2 | a5Lerp3 | a5Lerp4 | a5Lerp5
  | a5Zero | a5Max | cEnd0 | cEnd1 | cMix21 | cMix12 => rfl
  | cExp565 v | bc3Block v | blkParse v | kindDecode v =>
    rw [encode, decode_oneWord (by decide) v (by decide), decodeOperands, field_toNat]
  | aSel t | cSel t | bc3Texel t =>
    rw [encode, decode_oneWord (by decide) t (by decide), decodeOperands, decodeTexelNumber_toNat]
  | unpFetch8 x y => exact decode_bitCountWord 8#32 x y
  | unpFetch16 x y => exact decode_bitCountWord 16#32 x y
  | unpFetch32 x y => exact decode_bitCountWord 32#32 x y
  | unpFetch64 x y => exact decode_bitCountWord 64#32 x y
  | unpBadbits n =>
    rw [encode, decode_bitCountWord, bitCountRow_illegal (by simpa [Instr.wellFormed] using wf)]
  | texelPut x y p => exact decode_texelPut x y p
  | unpCheck w h g n => exact decode_unpCheck w h g n
  | bc3Image x y | unpChan x y | unpPixel x y =>
    obtain ⟨first, second⟩ := field_twoWords x y
    rw [encode, decode_twoWords (by decide) x y (by decide), decodeOperands, first, second]

/-- Settles O2: each word, written out from the tables, is evaluated by the decoder. -/
theorem sampleWordsDecode : Obligations.SampleWordsDecode :=
  ⟨rfl, rfl, rfl, rfl, rfl, rfl, rfl, rfl, rfl, rfl, rfl⟩

end Sys2Proof
end

section
/-! The image that the loop of BC3.IMAGE leaves in DST (42_bc3_image.md R146, R147): every pixel is its texel of the
pointwise form, in whatever order the blocks are taken (R149), and the statements about BC3.IMAGE and the BC3 path. -/

namespace Sys2Proof.Machine

/-! ### Bytes that stand in SRC -/

theorem readBytes_ok {m : Memory} {off n : Nat} {bs : List Byte} (read : readBytes m off n = .ok bs) :
    bs.length = n ∧ ∀ k (hk : k < bs.length), Memory.read m (off + k) = some bs[k] := by
  induction n generalizing off bs with
  | zero =>
    obtain rfl := Except.ok.inj read
    exact ⟨rfl, fun k hk => absurd hk (Nat.not_lt_zero k)⟩
  | succ n ih =>
    simp only [readBytes] at read
    split at read
    · cases read
    case h_2 b first =>
      split at read
      · cases read
      case h_2 rest tail =>
        obtain rfl := Except.ok.inj read
        obtain ⟨len, listed⟩ := ih tail
        refine ⟨by rw [List.length_cons, len], fun k hk => ?_⟩
        cases k with
        | zero => exact first
        | succ k =>
          rw [List.getElem_cons_succ, show off + (k + 1) = off + 1 + k by omega]
          exact listed k (Nat.lt_of_succ_lt_succ hk)

/-- What MemRead answers stands in SRC. -/
theorem srcHolds_of_memReadSrc {s : State} {off n : Nat} {bs : List Byte}
    (read : memReadSrc s.src s.srcLen off n = .ok bs) : bs.length = n ∧ SrcHolds s off bs := by
  obtain ⟨within, bytes⟩ := memReadSrc_ok read
  obtain ⟨rfl, listed⟩ := readBytes_ok bytes
  exact ⟨rfl, within, listed⟩

/-- Two units with the same SRC hold the same bytes at an offset. -/
theorem srcHolds_unique {s s' : State} (same : s.src = s'.src) {off : Nat} {bs bs' : List Byte}
    (len : bs.length = bs'.length) (holds : SrcHolds s off bs) (holds' : SrcHolds s' off bs') : bs = bs' := by
  obtain ⟨_, listed⟩ := holds
  obtain ⟨_, listed'⟩ := holds'
  refine List.ext_getElem len fun k hk hk' => Option.some.inj ?_
  rw [← listed k hk, ← listed' k hk', same]

/-! ### One pixel of DST -/

/-- Byte `j` of a pixel in the byte order R, G, B, A (20_memory.md R44). -/
def pixelByte (px : Pixel) (j : Nat) : Byte :=
  match j with
  | 0 => px.r
  | 1 => px.g
  | 2 => px.b
  | _ => px.a

theorem read_of_holdsPixel {m : Memory} {a : Nat} {px : Pixel} (holds : HoldsPixel m (a / 4) px) :
    Memory.read m a = some (pixelByte px (a % 4)) := by
  obtain ⟨r, g, b, al⟩ := holds
  have place : a = 4 * (a / 4) + a % 4 := (Nat.div_add_mod a 4).symm
  have lane : a % 4 = 0 ∨ a % 4 = 1 ∨ a % 4 = 2 ∨ a % 4 = 3 := by omega
  rcases lane with j | j | j | j
  all_goals
    rw [j] at place ⊢
    rw [place]
    assumption

theorem holdsPixel_writePixel_same (m : Memory) (p : Nat) (px : Pixel) : HoldsPixel (writePixel m p px) p px := by
  simp [HoldsPixel, read_writePixel]

theorem holdsPixel_writePixel_other {m : Memory} {p q : Nat} {px px' : Pixel} (hne : q ≠ p) (holds : HoldsPixel m q px') :
    HoldsPixel (writePixel m p px) q px' := by
  unfold HoldsPixel
  rw [read_writePixel_other _ _ _ _ (by omega), read_writePixel_other _ _ _ _ (by omega),
    read_writePixel_other _ _ _ _ (by omega), read_writePixel_other _ _ _ _ (by omega)]
  exact holds

/-- Inside a row of the image the pixel number tells the coordinates (20_memory.md R45). -/
theorem pixelNumber_inj {w x y x' y' : Nat} (hx : x < w) (hx' : x' < w)
    (same : pixelNumber w x y = pixelNumber w x' y') : x = x' ∧ y = y' := by
  have pos : 0 < w := Nat.zero_lt_of_lt hx
  have down : y = y' := by
    calc y = pixelNumber w x y / w := by
          rw [pixelNumber, Nat.add_comm, Nat.add_mul_div_right _ _ pos, Nat.div_eq_of_lt hx, Nat.zero_add]
      _ = pixelNumber w x' y' / w := by rw [same]
      _ = y' := by rw [pixelNumber, Nat.add_comm, Nat.add_mul_div_right _ _ pos, Nat.div_eq_of_lt hx', Nat.zero_add]
  subst down
  exact ⟨Nat.add_left_cancel same, rfl⟩

/-- The coordinates of a pixel number below the size of the image. -/
theorem pixelNumber_mod_div {w h p : Nat} (hp : p < w * h) : p % w < w ∧ p / w < h ∧ p / w * w + p % w = p := by
  have pos : 0 < w := Nat.pos_of_mul_pos_right (Nat.zero_lt_of_lt hp)
  exact ⟨Nat.mod_lt p pos, Nat.div_lt_of_lt_mul hp, Nat.div_add_mod' p w⟩

theorem inside_iff {w h x y : Nat} : inside w h x y = true ↔ x < w ∧ y < h := by simp [inside]

theorem putTexel_holdsPixel {cap : Option Nat} {w h x y : Nat} {px : Pixel} {m m' : Memory} (hx : x < w) (hy : y < h)
    (put : putTexel cap w h x y px m = .ok m') : HoldsPixel m' (y * w + x) px := by
  rcases putTexel_ok put with ⟨out, _⟩ | ⟨_, _, rfl⟩
  · rw [inside_iff.mpr ⟨hx, hy⟩] at out
    cases out
  · exact holdsPixel_writePixel_same m _ px

/-- A texel put elsewhere, or put again, leaves a pixel's value. -/
theorem putTexel_keepsPixel {cap : Option Nat} {w h x y x' y' : Nat} {px px' : Pixel} {m m' : Memory}
    (put : putTexel cap w h x y px m = .ok m') (hx' : x' < w) (own : x' = x → y' = y → px' = px)
    (holds : HoldsPixel m (y' * w + x') px') : HoldsPixel m' (y' * w + x') px' := by
  rcases putTexel_ok put with ⟨_, rfl⟩ | ⟨inImage, _, rfl⟩
  · exact holds
  by_cases here : x' = x ∧ y' = y
  · obtain ⟨rfl, rfl⟩ := here
    rw [own rfl rfl]
    exact holdsPixel_writePixel_same m _ px
  · refine holdsPixel_writePixel_other (fun same => here ?_) holds
    exact pixelNumber_inj hx' (inside_iff.mp inImage).left same

/-! ### One block of the loop -/

theorem imageTexels_cons {cap : Option Nat} {w h t : Nat} {ts : List Nat} {k k' : Work}
    (run : imageTexels cap w h (t :: ts) k = .ok k') :
    ∃ m, putTexel cap w h (4 * k.cursor.blockX + t % 4) (4 * k.cursor.blockY + t / 4) (texelOf k.latches t) k.dst = .ok m ∧
      imageTexels cap w h ts { k with cursor := { k.cursor with texelI := t % 4, texelJ := t / 4 }, dst := m } = .ok k' := by
  simp only [imageTexels] at run
  split at run
  · cases run
  case h_2 k₁ texel =>
    obtain ⟨m, put, rfl⟩ := imageTexel_ok texel
    rw [Nat.div_add_mod] at put
    exact ⟨m, put, run⟩

/-- A pixel that holds what its own block gives it, or is in another block, keeps its value while a block is stored. -/
theorem imageTexels_keepsPixel {cap : Option Nat} {w h : Nat} (ts : List Nat) (texels : ∀ t ∈ ts, t < 16) {k k' : Work}
    (run : imageTexels cap w h ts k = .ok k') {x y : Nat} {px : Pixel} (hx : x < w)
    (own : x / 4 = k.cursor.blockX → y / 4 = k.cursor.blockY → px = texelOf k.latches (4 * (y % 4) + x % 4))
    (holds : HoldsPixel k.dst (y * w + x) px) : HoldsPixel k'.dst (y * w + x) px := by
  induction ts generalizing k with
  | nil =>
    obtain rfl := Except.ok.inj run
    exact holds
  | cons t ts ih =>
    obtain ⟨ht, rest⟩ := List.forall_mem_cons.mp texels
    obtain ⟨m, put, run⟩ := imageTexels_cons run
    have kept : HoldsPixel m (y * w + x) px := by
      refine putTexel_keepsPixel put hx (fun across down => ?_) holds
      rw [own (by omega) (by omega), show 4 * (y % 4) + x % 4 = t by omega]
    exact ih rest run own kept

/-- After the texels of a block, every pixel of the block inside the image holds its texel. -/
theorem imageTexels_holdsPixel {cap : Option Nat} {w h : Nat} (ts : List Nat) (texels : ∀ t ∈ ts, t < 16) {k k' : Work}
    (run : imageTexels cap w h ts k = .ok k') {x y : Nat} (hx : x < w) (hy : y < h)
    (across : x / 4 = k.cursor.blockX) (down : y / 4 = k.cursor.blockY) (mem : 4 * (y % 4) + x % 4 ∈ ts) :
    HoldsPixel k'.dst (y * w + x) (texelOf k.latches (4 * (y % 4) + x % 4)) := by
  induction ts generalizing k with
  | nil => cases mem
  | cons t ts ih =>
    obtain ⟨ht, rest⟩ := List.forall_mem_cons.mp texels
    obtain ⟨m, put, run⟩ := imageTexels_cons run
    rcases List.mem_cons.mp mem with here | later
    · rw [show 4 * k.cursor.blockX + t % 4 = x by omega, show 4 * k.cursor.blockY + t / 4 = y by omega, ← here] at put
      exact imageTexels_keepsPixel ts rest run hx (fun _ _ => rfl) (putTexel_holdsPixel hx hy put)
    · have holds := ih rest run
      exact holds across down later

/-! ### The blocks in any order -/

/-- Pixel `(x, y)` of `m` is the texel of the pointwise form (42_bc3_image.md R147). -/
def HoldsTexel (s : State) (w x y : Nat) (m : Memory) : Prop :=
  ∃ bytes : List Byte, bytes.length = 16 ∧ SrcHolds s (((y / 4) * ((w + 3) / 4) + x / 4) * 16) bytes ∧
    HoldsPixel m (y * w + x) (texelOf (parseBlock (BitVec.ofNat 128 (leNat bytes))) (4 * (y % 4) + x % 4))

theorem holdsImage_iff {s : State} {w h : Nat} {m : Memory} :
    HoldsImage s w h m ↔ ∀ x y, x < w → y < h → HoldsTexel s w x y m := Iff.rfl

/-- A block's bytes stand at the offset of R142, and its texels are stored from them. -/
theorem imageBlock_srcHolds {s : State} {w h : Nat} {k k' : Work} {bx byy : Nat}
    (run : imageBlock s w h k bx byy = .ok k') :
    ∃ bytes : List Byte, bytes.length = 16 ∧ SrcHolds s ((byy * ((w + 3) / 4) + bx) * 16) bytes ∧
      imageTexels s.dstCap w h (List.range 16)
        { k with cursor := ⟨bx, byy, 0, 0⟩, latches := parseBlock (BitVec.ofNat 128 (leNat bytes)) } = .ok k' := by
  obtain ⟨bytes, read, texels⟩ := imageBlock_ok run
  obtain ⟨len, holds⟩ := srcHolds_of_memReadSrc read
  exact ⟨bytes, len, holds, texels⟩

theorem imageBlock_holdsTexel {s : State} {w h : Nat} {k k' : Work} {x y : Nat} (hx : x < w) (hy : y < h)
    (run : imageBlock s w h k (x / 4) (y / 4) = .ok k') : HoldsTexel s w x y k'.dst := by
  obtain ⟨bytes, len, holds, texels⟩ := imageBlock_srcHolds run
  exact ⟨bytes, len, holds, imageTexels_holdsPixel _ (fun _ => List.mem_range.mp) texels hx hy rfl rfl
    (List.mem_range.mpr (by omega))⟩

/-- A pixel that is its texel stays so, whichever block is stored: its own block gives it the same value again. -/
theorem imageBlock_keepsTexel {s : State} {w h : Nat} {k k' : Work} {bx byy x y : Nat} (hx : x < w)
    (run : imageBlock s w h k bx byy = .ok k') (texel : HoldsTexel s w x y k.dst) : HoldsTexel s w x y k'.dst := by
  obtain ⟨bytes, len, holds, pixel⟩ := texel
  obtain ⟨bytes', len', holds', texels⟩ := imageBlock_srcHolds run
  refine ⟨bytes, len, holds, imageTexels_keepsPixel _ (fun _ => List.mem_range.mp) texels hx (fun across down => ?_) pixel⟩
  have across : x / 4 = bx := across
  have down : y / 4 = byy := down
  subst across down
  rw [srcHolds_unique rfl (len.trans len'.symm) holds holds']

theorem imageBlocks_cons {s : State} {w h : Nat} {b : Nat × Nat} {bs : List (Nat × Nat)} {k k' : Work}
    (run : imageBlocks s w h (b :: bs) k = .ok k') :
    ∃ k₁, imageBlock s w h k b.1 b.2 = .ok k₁ ∧ imageBlocks s w h bs k₁ = .ok k' := by
  simp only [imageBlocks] at run
  split at run
  · cases run
  · exact ⟨_, ‹_›, run⟩

theorem imageBlocks_keepsTexel {s : State} {w h : Nat} (bs : List (Nat × Nat)) {k k' : Work}
    (run : imageBlocks s w h bs k = .ok k') {x y : Nat} (hx : x < w) (texel : HoldsTexel s w x y k.dst) :
    HoldsTexel s w x y k'.dst := by
  induction bs generalizing k with
  | nil =>
    obtain rfl := Except.ok.inj run
    exact texel
  | cons b bs ih =>
    obtain ⟨k₁, block, rest⟩ := imageBlocks_cons run
    exact ih rest (imageBlock_keepsTexel hx block texel)

theorem imageBlocks_holdsTexel {s : State} {w h : Nat} (bs : List (Nat × Nat)) {k k' : Work}
    (run : imageBlocks s w h bs k = .ok k') {x y : Nat} (hx : x < w) (hy : y < h) (mem : (x / 4, y / 4) ∈ bs) :
    HoldsTexel s w x y k'.dst := by
  induction bs generalizing k with
  | nil => cases mem
  | cons b bs ih =>
    obtain ⟨k₁, block, rest⟩ := imageBlocks_cons run
    rcases List.mem_cons.mp mem with rfl | later
    · exact imageBlocks_keepsTexel bs rest hx (imageBlock_holdsTexel hx hy block)
    · exact ih rest later

theorem div_lt_blockCount {n x : Nat} (hx : x < n) : x / 4 < (n + 3) / 4 := by omega

/-- Blocks in any order that leaves none of the grid out store the image (42_bc3_image.md R149). -/
theorem imageBlocks_holdsImage {s : State} {w h : Nat} {bs : List (Nat × Nat)} {k k' : Work}
    (run : imageBlocks s w h bs k = .ok k') (all : ∀ b ∈ rowMajor ((w + 3) / 4) ((h + 3) / 4), b ∈ bs) :
    HoldsImage s w h k'.dst :=
  holdsImage_iff.mpr fun _ _ hx hy => imageBlocks_holdsTexel bs run hx hy
    (all _ (mem_rowMajor.mpr ⟨div_lt_blockCount hx, div_lt_blockCount hy⟩))

/-! ### BC3.IMAGE and the BC3 path -/

theorem imageRun_holdsImage {w h : Nat} {s s' : State} (run : imageRun w h s = .ok s') : HoldsImage s w h s'.dst := by
  obtain ⟨k, blocks, rfl, _⟩ := imageRun_ok run
  exact imageBlocks_holdsImage blocks fun _ => id

theorem imageRun_outside {w h : Nat} {s s' : State} (run : imageRun w h s = .ok s') {a : Nat} (ha : 4 * (w * h) ≤ a) :
    Memory.read s'.dst a = Memory.read s.dst a := by
  obtain ⟨_, _, _, kept⟩ := imageRun_ok run
  exact kept.outside a (by omega)

/-- An image stored from a SRC is determined by it, byte by byte. -/
theorem holdsImage_read_unique {s s' : State} (same : s.src = s'.src) {w h : Nat} {m m' : Memory}
    (image : HoldsImage s w h m) (image' : HoldsImage s' w h m') {a : Nat} (ha : a < 4 * (w * h)) :
    Memory.read m a = Memory.read m' a := by
  obtain ⟨hx, hy, number⟩ := pixelNumber_mod_div (w := w) (h := h) (p := a / 4) (by omega)
  obtain ⟨bytes, len, holds, pixel⟩ := image _ _ hx hy
  obtain ⟨bytes', len', holds', pixel'⟩ := image' _ _ hx hy
  rw [number] at pixel pixel'
  rw [read_of_holdsPixel pixel, read_of_holdsPixel pixel', srcHolds_unique same (len.trans len'.symm) holds holds']

theorem holdsImage_listed {s : State} {w h : Nat} {m : Memory} (image : HoldsImage s w h m) {a : Nat}
    (ha : a < 4 * (w * h)) : (Memory.read m a).isSome = true := by
  obtain ⟨hx, hy, number⟩ := pixelNumber_mod_div (w := w) (h := h) (p := a / 4) (by omega)
  obtain ⟨_, _, _, pixel⟩ := image _ _ hx hy
  rw [number] at pixel
  rw [read_of_holdsPixel pixel, Option.isSome_some]

theorem readyFrom_becomeReady (surf : BitVec 2) (s : State) : ReadyFrom surf s (becomeReady surf s) := by
  simp [ReadyFrom]

/-- The loop changes nothing that `ReadyFrom` speaks of. -/
theorem readyFrom_becomeReady_imageRun {w h : Nat} {s s' : State} (run : imageRun w h s = .ok s') (surf : BitVec 2) :
    ReadyFrom surf s (becomeReady surf s') := by
  obtain ⟨_, _, rfl, _⟩ := imageRun_ok run
  exact readyFrom_becomeReady surf _

theorem imageCheck_short {w h : Nat} {s : State} (short : s.srcLen < bc3Need w h) :
    imageCheck w h s = some .decodeError := if_pos short

theorem imageCheck_big {w h : Nat} {s : State} (enough : bc3Need w h ≤ s.srcLen)
    (big : beyondCap s.dstCap (w * h) = true) : imageCheck w h s = some .refDstCap := by
  rw [imageCheck, if_neg (Nat.not_lt.mpr enough), if_pos big]

theorem exec_of_runsBc3Path {i : Instr} {s : State} (runs : RunsBc3Path s i) : exec i s = bc3Path s := by
  rcases runs with rfl | ⟨rfl, idle, hw, hh, tag⟩
  · rfl
  · rw [exec_decode_dispatch idle hw hh, tag]
    rfl

theorem bc3Path_of_imageRun {s s' : State} (checked : imageCheck s.cfg.width.toNat s.cfg.height.toNat s = none)
    (run : imageRun s.cfg.width.toNat s.cfg.height.toNat s = .ok s') :
    bc3Path s = .next (becomeReady surfMaterialised s') := by
  rw [bc3Path, checked, run]

theorem bc3Path_of_imageCheck {s : State} {c : Cause}
    (fails : imageCheck s.cfg.width.toNat s.cfg.height.toNat s = some c) : bc3Path s = .next (raisePlain c s) := by
  rw [bc3Path, fails]

theorem exec_bc3Image_of_imageRun {w h : Word} {s s' : State} (checked : imageCheck w.toNat h.toNat s = none)
    (run : imageRun w.toNat h.toNat s = .ok s') : exec (.bc3Image w h) s = .next s' := by
  rw [exec, execBc3Image, checked, run]
  rfl

theorem exec_bc3Image_of_imageCheck {w h : Word} {s : State} {c : Cause}
    (fails : imageCheck w.toNat h.toNat s = some c) : exec (.bc3Image w h) s = .next (raisePlain c s) := by
  rw [exec, execBc3Image, fails]

/-! ### The statements -/

/-- Settles O30: every order runs to its end over a loaded SRC, and no block of the grid is left out. -/
theorem bc3BlockOrderIsFree : Obligations.Bc3BlockOrderIsFree := by
  intro w h s k order loaded enough fits perm
  obtain ⟨k', run⟩ := imageBlocks_completes loaded enough fits order (fun b mem => mem_rowMajor.mp (perm.mem_iff.mp mem)) k
  exact ⟨k', run, imageBlocks_holdsImage run fun b => perm.mem_iff.mpr,
    fun a ha => (imageBlocks_keeps order run).outside a (by omega)⟩

/-- Settles O29: the checks pass, the loop completes, and what it leaves is the image. -/
theorem bc3ImageStoresImage : Obligations.Bc3ImageStoresImage := by
  intro w h s loaded enough fits
  have checked : imageCheck w.toNat h.toNat s = none := imageCheck_none.mpr ⟨enough, fits⟩
  obtain ⟨s', run⟩ := imageRun_completes loaded checked
  refine ⟨s', exec_bc3Image_of_imageRun checked run, imageRun_holdsImage run, fun a => imageRun_outside run, ?scratch⟩
  case scratch =>
    obtain ⟨_, _, rfl, _⟩ := imageRun_ok run
    rfl

/-- Settles O28: the loop's image stands under the STATUS and the response of a success. -/
theorem bc3DecodeStoresImage : Obligations.Bc3DecodeStoresImage := by
  intro i s runs loaded enough fits
  have checked : imageCheck s.cfg.width.toNat s.cfg.height.toNat s = none := imageCheck_none.mpr ⟨enough, fits⟩
  obtain ⟨s', run⟩ := imageRun_completes loaded checked
  have image := imageRun_holdsImage run
  exact ⟨_, (exec_of_runsBc3Path runs).trans (bc3Path_of_imageRun checked run),
    readyFrom_becomeReady_imageRun run surfMaterialised, image, fun a ha => imageRun_outside run ha⟩

/-- Settles O24: the length is tested first, then the capacity; each failure is a `raise` with no info. -/
theorem bc3ChecksLengthThenCapacity : Obligations.Bc3ChecksLengthThenCapacity := by
  refine ⟨fun w h s => ⟨fun short => ?_, fun enough big => ?_⟩, fun i s runs => ?_⟩
  · exact ⟨_, exec_bc3Image_of_imageCheck (imageCheck_short short), raisedFrom_raise ..⟩
  · exact ⟨_, exec_bc3Image_of_imageCheck (imageCheck_big enough big), raisedFrom_raise ..⟩
  · rw [exec_of_runsBc3Path runs]
    refine ⟨fun short => ?_, fun enough big => ?_⟩
    · exact ⟨_, bc3Path_of_imageCheck (imageCheck_short short), raisedFrom_raise ..⟩
    · exact ⟨_, bc3Path_of_imageCheck (imageCheck_big enough big), raisedFrom_raise ..⟩

end Sys2Proof.Machine
end

section
/-! The surface and the unpacker: the words that AT and RDDST answer with (44_surface.md R181, R182), the fetch of a pixel
inside SRC (43_unpacker.md R164), TEXEL.PUT (42_bc3_image.md R145), and the statements assembled from them. -/

namespace Sys2Proof.Machine

/-! ### The word of a pixel (30_encoding.md R80) -/

theorem toNat_pixelWord (px : Pixel) :
    (pixelWord px).toNat = px.r.toNat + px.g.toNat * 2 ^ 8 + px.b.toNat * 2 ^ 16 + px.a.toNat * 2 ^ 24 := by
  simp only [pixelWord, toNat_append_byte]
  ring

theorem pixelWord_eq_ofNat (px : Pixel) :
    pixelWord px =
      BitVec.ofNat 32 (px.r.toNat + px.g.toNat * 2 ^ 8 + px.b.toNat * 2 ^ 16 + px.a.toNat * 2 ^ 24) := by
  rw [← toNat_pixelWord, BitVec.ofNat_toNat, BitVec.setWidth_eq]

/-- Byte `j` of the word is byte `j` of the pixel. -/
theorem pixelWord_byte (px : Pixel) {j : Nat} (hj : j < 4) :
    (pixelWord px >>> (8 * j)) &&& 0xFF#32 = (pixelByte px j).setWidth 32 := by
  have hr := px.r.isLt
  have hg := px.g.isLt
  have hb := px.b.isLt
  have ha := px.a.isLt
  have mask (n : Nat) : n &&& (0xFF#32).toNat = n % 2 ^ 8 := Nat.and_two_pow_sub_one_eq_mod n 8
  apply BitVec.eq_of_toNat_eq
  rw [BitVec.toNat_and, mask, BitVec.toNat_ushiftRight, Nat.shiftRight_eq_div_pow, toNat_pixelWord,
    BitVec.toNat_setWidth_of_le (by decide)]
  interval_cases j
  all_goals
    simp only [pixelByte]
    omega

theorem dstByte_of_read {s : State} {a : Nat} {b : Byte} (read : Memory.read s.dst a = some b) : dstByte s a = b := by
  rw [dstByte, read, Option.getD_some]

theorem dstPixel_of_holdsPixel {s : State} {p : Nat} {px : Pixel} (holds : HoldsPixel s.dst p px) :
    dstPixel s p = px := by
  obtain ⟨r, g, b, a⟩ := holds
  refine Pixel.mk.injEq .. |>.mpr ⟨?_, ?_, ?_, ?_⟩
  all_goals
    apply dstByte_of_read
    assumption

/-- What RDDST reads is one byte of the pixel that AT reads. -/
theorem dstByte_eq_pixelByte (s : State) (a : Nat) : dstByte s a = pixelByte (dstPixel s (a / 4)) (a % 4) := by
  have place : a = 4 * (a / 4) + a % 4 := (Nat.div_add_mod a 4).symm
  have lane : a % 4 = 0 ∨ a % 4 = 1 ∨ a % 4 = 2 ∨ a % 4 = 3 := by omega
  rcases lane with j | j | j | j
  all_goals
    rw [j] at place ⊢
    conv_lhs => rw [place]
    rfl

/-! ### AT and RDDST, branch by branch -/

theorem exec_at_materialised {x y : Word} {s : State} (ready : isReady s = true) (stored : isMaterialised s = true)
    (hx : x.toNat < s.cfg.width.toNat) (hy : y.toNat < s.cfg.height.toNat) :
    exec (.atXY x y) s =
      .next (respond true (pixelWord (dstPixel s (y.toNat * s.cfg.width.toNat + x.toNat))) s) := by
  simp [exec, execAt, ready, stored, inside_iff.mpr ⟨hx, hy⟩, pixelNumber]

theorem exec_at_lazy {x y : Word} {s : State} (ready : isReady s = true) (unstored : isMaterialised s = false)
    (hx : x.toNat < s.cfg.width.toNat) (hy : y.toNat < s.cfg.height.toNat) {px : Pixel}
    (pixel : rawPixel s x.toNat y.toNat = .ok px) : exec (.atXY x y) s = .next (respond true (pixelWord px) s) := by
  simp [exec, execAt, ready, unstored, inside_iff.mpr ⟨hx, hy⟩, pixel, finish]

theorem exec_at_outside {x y : Word} {s : State} (ready : isReady s = true)
    (out : s.cfg.width.toNat ≤ x.toNat ∨ s.cfg.height.toNat ≤ y.toNat) :
    exec (.atXY x y) s = .next (respondAny false s) := by
  have notInside : inside s.cfg.width.toNat s.cfg.height.toNat x.toNat y.toNat = false := by
    rw [← Bool.not_eq_true, inside_iff]
    omega
  simp [exec, execAt, ready, notInside]

theorem exec_rddst_inside {k : Word} {s : State} (ready : isReady s = true) (stored : isMaterialised s = true)
    (within : k.toNat < 4 * (s.cfg.width.toNat * s.cfg.height.toNat)) :
    exec (.rddst k) s = .next (respond true ((dstByte s k.toNat).setWidth 32) s) := by
  simp [exec, execRddst, ready, stored, Config.pixelBytes, Nat.not_le.mpr within]

theorem exec_rddst_past {k : Word} {s : State} (ready : isReady s = true) (stored : isMaterialised s = true)
    (past : 4 * (s.cfg.width.toNat * s.cfg.height.toNat) ≤ k.toNat) :
    exec (.rddst k) s = .next (respondAny false s) := by
  simp [exec, execRddst, ready, stored, Config.pixelBytes, past]

/-! ### The fetch (43_unpacker.md R164) -/

theorem rawOffset_legal {bits : Nat} (legal : bits ∈ Config.bitCounts) (w x y : Nat) :
    rawOffset w bits x y = y * (w * (bits / 8)) + x * (bits / 8) := by
  rw [rawOffset, rawPitch_legal legal, rawStride]

theorem fetchPixel_inside {s : State} {bits x y : Nat} (loaded : SrcLoaded s) (legal : bits ∈ Config.bitCounts)
    (within : y * (s.cfg.width.toNat * (bits / 8)) + x * (bits / 8) + bits / 8 ≤ s.srcLen) :
    ∃ bytes : List Byte, bytes.length = bits / 8 ∧
      SrcHolds s (y * (s.cfg.width.toNat * (bits / 8)) + x * (bits / 8)) bytes ∧
      fetchPixel s bits x y = .ok (BitVec.ofNat 64 (leNat bytes)) := by
  obtain ⟨_, listed, _⟩ := loaded
  obtain ⟨bytes, read, _, _⟩ := memReadSrc_inside within fun a => (listed a).mpr
  obtain ⟨len, holds⟩ := srcHolds_of_memReadSrc read
  exact ⟨bytes, len, holds, by rw [fetchPixel, rawOffset_legal legal, rawStride, read]⟩

theorem fetchPixel_outside {s : State} {bits x y : Nat} (legal : bits ∈ Config.bitCounts)
    (past : s.srcLen < y * (s.cfg.width.toNat * (bits / 8)) + x * (bits / 8) + bits / 8) :
    fetchPixel s bits x y =
      .error (.srcOutOfRange (y * (s.cfg.width.toNat * (bits / 8)) + x * (bits / 8)) (bits / 8)) := by
  rw [fetchPixel, rawOffset_legal legal, rawStride, memReadSrc, if_neg (Nat.not_le.mpr past)]

/-- The bytes of a pixel inside the image lie inside the bytes that the length check asks for. -/
theorem pixelBytes_within {w h x y : Nat} (hx : x < w) (hy : y < h) (n : Nat) :
    y * (w * n) + x * n + n ≤ w * n * h := by
  calc y * (w * n) + x * n + n = (pixelNumber w x y + 1) * n := by rw [pixelNumber]; ring
    _ ≤ w * h * n := Nat.mul_le_mul_right n (pixelNumber_lt (inside_iff.mpr ⟨hx, hy⟩))
    _ = w * n * h := by ring

/-- Inside an image that passed UNP.CHECK the fetch answers with bytes of SRC. -/
theorem fetchPixel_checked {s : State} {x y : Nat} (loaded : SrcLoaded s)
    (checked : rawCheck s.cfg.width s.cfg.height s.cfg.pfFlags s.cfg.rgbBitCount s.srcLen = none)
    (hx : x < s.cfg.width.toNat) (hy : y < s.cfg.height.toNat) :
    ∃ bytes : List Byte, bytes.length = s.cfg.rgbBitCount.toNat / 8 ∧
      SrcHolds s (y * (s.cfg.width.toNat * (s.cfg.rgbBitCount.toNat / 8)) + x * (s.cfg.rgbBitCount.toNat / 8)) bytes ∧
      fetchPixel s s.cfg.rgbBitCount.toNat x y = .ok (BitVec.ofNat 64 (leNat bytes)) := by
  obtain ⟨_, legal, enough⟩ := rawCheck_none.mp checked
  rw [rawPitch_legal legal] at enough
  exact fetchPixel_inside loaded legal (Nat.le_trans (pixelBytes_within hx hy _) enough)

theorem rawPixel_of_fetchPixel {s : State} {x y : Nat} {d : BitVec 64}
    (fetched : fetchPixel s s.cfg.rgbBitCount.toNat x y = .ok d) : rawPixel s x y = .ok (unpackPixel s.cfg d) := by
  rw [rawPixel, fetched]

/-- The rows of UNP.FETCH with the bytes of their pixel (30_encoding.md R75). -/
def fetchRows (x y : Word) : List (Instr × Nat) :=
  [(.unpFetch8 x y, 1), (.unpFetch16 x y, 2), (.unpFetch32 x y, 4), (.unpFetch64 x y, 8)]

theorem exec_fetchRows (x y : Word) (s : State) :
    ∀ p ∈ fetchRows x y, ∃ bits ∈ Config.bitCounts, bits / 8 = p.2 ∧
      exec p.1 s = finish (fetchPixel s bits x.toNat y.toNat) setD s := by
  simp only [fetchRows, List.forall_mem_cons]
  exact ⟨⟨8, by decide, rfl, rfl⟩, ⟨16, by decide, rfl, rfl⟩, ⟨32, by decide, rfl, rfl⟩, ⟨64, by decide, rfl, rfl⟩,
    List.forall_mem_nil _⟩

theorem bitCounts_le : ∀ bits ∈ Config.bitCounts, bits / 8 ≤ 8 := by decide

/-- A pixel of up to eight bytes is kept in 64 bits with no loss. -/
theorem toNat_ofNat_leNat {bytes : List Byte} (short : bytes.length ≤ 8) :
    (BitVec.ofNat 64 (leNat bytes)).toNat = leNat bytes := by
  have fits : leNat bytes < 2 ^ 64 :=
    calc leNat bytes < 256 ^ bytes.length := leNat_lt bytes
      _ ≤ 256 ^ 8 := Nat.pow_le_pow_right (by decide) short
  rw [BitVec.toNat_ofNat, Nat.mod_eq_of_lt fits]

/-! ### TEXEL.PUT -/

theorem exec_texelPut_of_put {x y p : Word} {s : State} {m : Memory}
    (put : putTexel s.dstCap s.cfg.width.toNat s.cfg.height.toNat x.toNat y.toNat (pixelOfWord p) s.dst = .ok m) :
    exec (.texelPut x y p) s = .next (setDst m s) := by
  rw [exec, execTexelPut, put, finish]

theorem putTexel_inside {cap : Option Nat} {w h x y : Nat} (hx : x < w) (hy : y < h)
    (inCap : beyondCap cap (y * w + x + 1) = false) (px : Pixel) (m : Memory) :
    putTexel cap w h x y px m = .ok (writePixel m (y * w + x) px) := by
  simp [putTexel, inside_iff.mpr ⟨hx, hy⟩, memWriteDst, pixelNumber, inCap]

theorem putTexel_beyond {cap : Option Nat} {w h x y : Nat} (hx : x < w) (hy : y < h)
    (past : beyondCap cap (y * w + x + 1) = true) (px : Pixel) (m : Memory) :
    putTexel cap w h x y px m = .error (.dstOutOfRange (y * w + x)) := by
  simp [putTexel, inside_iff.mpr ⟨hx, hy⟩, memWriteDst, pixelNumber, past]

theorem putTexel_outside {cap : Option Nat} {w h x y : Nat} (out : w ≤ x ∨ h ≤ y) (px : Pixel) (m : Memory) :
    putTexel cap w h x y px m = .ok m := by
  rw [putTexel, if_neg (by rw [inside_iff]; omega)]

/-! ### The statements -/

/-- Settles O33: the branch of AT, whose pixel is the one DST holds. -/
theorem atReadsMaterialisedPixel : Obligations.AtReadsMaterialisedPixel := by
  intro x y s ready stored hx hy
  have answers := exec_at_materialised ready stored hx hy
  refine ⟨⟨_, answers⟩, fun px holds => ?_⟩
  rw [answers, dstPixel_of_holdsPixel holds, pixelWord_eq_ofNat]
  rfl

/-- Settles O34: the checks that made the surface put the pixel's bytes inside SRC. -/
theorem atUnpacksLazyPixel : Obligations.AtUnpacksLazyPixel := by
  intro x y s ready surf checked loaded hx hy
  have unstored : isMaterialised s = false := by rw [isMaterialised, surf]; rfl
  obtain ⟨bytes, len, holds, fetched⟩ := fetchPixel_checked loaded (checked surf) hx hy
  exact ⟨bytes, len, holds, exec_at_lazy ready unstored hx hy (rawPixel_of_fetchPixel fetched)⟩

/-- Settles O35: the bounds are tested before the surface is looked at. -/
theorem atOutOfBoundsIsNotServed : Obligations.AtOutOfBoundsIsNotServed :=
  fun _ _ s ready out => ⟨freeNow s 0, exec_at_outside ready out⟩

/-- Settles O36: a byte inside the surface, one past it, and no materialised surface. -/
theorem rddstReadsOneByte : Obligations.RddstReadsOneByte := by
  intro k s
  refine ⟨fun ready stored within => ?_, fun ready stored past => ⟨freeNow s 0, exec_rddst_past ready stored past⟩,
    fun h => exec_violationFrom (i := .rddst k) h⟩
  have answers := exec_rddst_inside ready stored within
  refine ⟨⟨_, answers⟩, fun b read => ?_⟩
  rw [answers, dstByte_of_read read, ← BitVec.ofNat_toNat]
  rfl

/-- Settles O37: both read pixel `k div 4` of DST, one its byte and the other its word. -/
theorem rddstAgreesWithAt : Obligations.RddstAgreesWithAt := by
  intro k x y s t u b v ready stored within across down byte word answersByte answersWord
  obtain ⟨hx, hy, number⟩ := pixelNumber_mod_div (w := s.cfg.width.toNat) (h := s.cfg.height.toNat) (p := k.toNat / 4)
    (by omega)
  rw [exec_rddst_inside ready stored within] at byte
  rw [exec_at_materialised ready stored (across ▸ hx) (down ▸ hy), across, down, number] at word
  obtain rfl := Host.Outcome.next.inj byte
  obtain rfl := Host.Outcome.next.inj word
  simp only [respond_response, Option.some.injEq, Response.mk.injEq, true_and] at answersByte answersWord
  rw [← answersByte, ← answersWord, pixelWord_byte _ (Nat.mod_lt _ (by decide)), dstByte_eq_pixelByte]

/-- Settles O31: a DECODE of DXT5 that ends in READY ran the loop, and AT reads the image it left. -/
theorem lookupAfterDecodeGivesTexel : Obligations.LookupAfterDecodeGivesTexel := by
  intro s t x y idle _ tag decodes ready hx hy
  have hw : s.cfg.width ≠ 0#32 := by rintro zero; simp [zero] at hx
  have hh : s.cfg.height ≠ 0#32 := by rintro zero; simp [zero] at hy
  rw [exec_of_runsBc3Path (.inr ⟨rfl, idle, hw, hh, tag⟩)] at decodes
  rcases bc3Path_next decodes with ⟨c, _, rfl⟩ | ⟨_, s', run, rfl⟩
  · simp [isReady, stError, stReady] at ready
  obtain ⟨bytes, len, holds, pixel⟩ := imageRun_holdsImage run _ _ hx hy
  obtain ⟨_, surf, _, _, _, cfg, _⟩ := readyFrom_becomeReady_imageRun run surfMaterialised
  have stored : isMaterialised (becomeReady surfMaterialised s') = true := by rw [isMaterialised, surf]; rfl
  have answers := exec_at_materialised ready stored (by rwa [cfg]) (by rwa [cfg])
  rw [cfg, dstPixel_of_holdsPixel (s := becomeReady surfMaterialised s') pixel] at answers
  exact ⟨bytes, len, holds, answers⟩

/-- Settles O51, by where the pixel lies: inside image and capacity, inside the image only, outside. -/
theorem texelPutWritesOrDrops : Obligations.TexelPutWritesOrDrops := by
  intro x y p s
  refine ⟨fun hx hy fits => ?_, fun hx hy past => ?_, fun out => exec_texelPut_of_put (putTexel_outside out _ _)⟩
  · exact ⟨_, exec_texelPut_of_put (putTexel_inside hx hy fits _ _), holdsPixel_writePixel_same _ _ _,
      fun a other => read_writePixel_other _ _ _ _ other, rfl⟩
  · rw [exec, execTexelPut, putTexel_beyond hx hy past, finish]

/-- Settles O52: each row is the fetch of its bit count, and at most eight bytes fit 64 bits. -/
theorem unpFetchReadsPixel : Obligations.UnpFetchReadsPixel := by
  intro x y s loaded p row within
  obtain ⟨bits, legal, bytesOf, runs⟩ := exec_fetchRows x y s p row
  rw [← bytesOf] at within ⊢
  obtain ⟨bytes, len, holds, fetched⟩ := fetchPixel_inside loaded legal within
  refine ⟨bytes, _, len, holds, toNat_ofNat_leNat (len ▸ bitCounts_le bits legal), ?_⟩
  rw [runs, fetched]
  rfl

/-- Settles O53: each row is the fetch of its bit count, whose read names offset and length. -/
theorem unpFetchOutsideSourceFaults : Obligations.UnpFetchOutsideSourceFaults := by
  intro x y s p row past
  obtain ⟨bits, legal, bytesOf, runs⟩ := exec_fetchRows x y s p row
  rw [← bytesOf] at past ⊢
  rw [runs, fetchPixel_outside legal past, finish]

/-- Settles O56: the checks put the fetch inside SRC, and a fetched pixel unpacks. -/
theorem unpPixelCompletesInBounds : Obligations.UnpPixelCompletesInBounds := by
  intro x y s loaded checked hx hy
  obtain ⟨_, _, _, fetched⟩ := fetchPixel_checked loaded checked hx hy
  exact ⟨_, exec_unpPixel_of_fetched fetched⟩

end Sys2Proof.Machine
end

section
/-! DECODE and the rows it is made of (40_dispatch.md): what a DECODE that answers can have done, the path its tag selects,
the checks of the RAW path, the rows with a meaning of one update, and the statements assembled from them. -/

namespace Sys2Proof.Machine

/-! ### DECODE (40_dispatch.md R96) -/

/-- What a DECODE that answers has done, in one of the three ways to end: the first error, a lazy surface, a materialised
surface from the loop's result. -/
inductive DecodeEnds (s : State) : State → Prop where
  | raised {c : Cause} (first : firstError s = some c) (info0 info1 : Word) : DecodeEnds s (raise c info0 info1 s)
  | lazy (first : firstError s = none) (kind : kindOf s.cfg.fourcc = .none)
      (checked : rawCheck s.cfg.width s.cfg.height s.cfg.pfFlags s.cfg.rgbBitCount s.srcLen = none) :
      DecodeEnds s (becomeReady surfLazy s)
  | materialised (first : firstError s = none) (kind : kindOf s.cfg.fourcc = .bc3)
      (checked : imageCheck s.cfg.width.toNat s.cfg.height.toNat s = none) {s' : State}
      (run : imageRun s.cfg.width.toNat s.cfg.height.toNat s = .ok s') :
      DecodeEnds s (becomeReady surfMaterialised s')

theorem firstError_of_nonzero {s : State} (hw : s.cfg.width ≠ 0#32) (hh : s.cfg.height ≠ 0#32) :
    firstError s = kindError s (kindOf s.cfg.fourcc) := if_neg (not_or.mpr ⟨hw, hh⟩)

theorem decodeEnds_of_dispatchKind {s t : State} {k : Kind} (kind : kindOf s.cfg.fourcc = k)
    (first : firstError s = kindError s k) (runs : dispatchKind k s = .next t) : DecodeEnds s t := by
  cases k with
  | none =>
    obtain rfl := Host.Outcome.next.inj runs
    rcases rawPath_cases s with ⟨c, check, path⟩ | ⟨check, path⟩
    · rw [path]
      exact .raised (first.trans check) _ _
    · rw [path]
      exact .lazy (first.trans check) kind check
  | bc3 =>
    rcases bc3Path_next runs with ⟨c, check, rfl⟩ | ⟨check, s', run, rfl⟩
    · exact .raised (first.trans check) _ _
    · exact .materialised (first.trans check) kind check run
  | bc1 | unsupported f =>
    obtain rfl := Host.Outcome.next.inj runs
    exact .raised first _ _

theorem exec_decode_ends {s t : State} (idle : isIdle s = true) (runs : exec .decode s = .next t) : DecodeEnds s t := by
  by_cases zero : s.cfg.width = 0#32 ∨ s.cfg.height = 0#32
  · rw [exec_decode_zeroDim idle zero] at runs
    obtain rfl := Host.Outcome.next.inj runs
    exact .raised (if_pos zero) _ _
  · obtain ⟨hw, hh⟩ := not_or.mp zero
    rw [exec_decode_dispatch idle hw hh] at runs
    exact decodeEnds_of_dispatchKind rfl (firstError_of_nonzero hw hh) runs

/-- The first error is a function of the registers, the length of SRC and the capacity. -/
theorem firstError_congr {s s' : State} (cfg : s.cfg = s'.cfg) (srcLen : s.srcLen = s'.srcLen)
    (dstCap : s.dstCap = s'.dstCap) : firstError s = firstError s' := by
  have path (k : Kind) : kindError s k = kindError s' k := by
    cases k with
    | bc3 => simp only [kindError, imageCheck, cfg, srcLen, dstCap]
    | none | bc1 | unsupported f => simp only [kindError, cfg, srcLen]
  simp only [firstError, path, cfg]

theorem exec_decodeTag (f : Word) (s : State) : exec (decodeTag f) s = dispatchKind (kindOf f) s := by
  by_cases hnone : f = Config.tagNone
  · subst hnone
    rfl
  by_cases dxt1 : f = Config.tagDxt1
  · subst dxt1
    rfl
  by_cases dxt5 : f = Config.tagDxt5
  · subst dxt5
    rfl
  · rw [decodeTag_unsupported hnone dxt1 dxt5, kindOf_unsupported hnone dxt1 dxt5]
    rfl

/-! ### The RAW path (43_unpacker.md R160 to R165) -/

theorem rawCheck_unsupported {w h g n : Word} {len : Nat}
    (fails : g &&& Config.requiredFlags ≠ Config.requiredFlags ∨ n.toNat ∉ Config.bitCounts) :
    rawCheck w h g n len = some .unsupportedFormatError := by
  by_cases flags : g &&& Config.requiredFlags ≠ Config.requiredFlags
  · exact if_pos flags
  · have illegal := fails.resolve_left flags
    simp [rawCheck, flags, illegal]

theorem rawCheck_short {w h g n : Word} {len : Nat} (flags : g &&& Config.requiredFlags = Config.requiredFlags)
    (legal : n.toNat ∈ Config.bitCounts) (short : len < rawPitch w.toNat n.toNat * h.toNat) :
    rawCheck w h g n len = some .ioError := by
  simp [rawCheck, flags, legal, short]

theorem exec_unpCheck_of_some {w h g n : Word} {s : State} {c : Cause} (fails : rawCheck w h g n s.srcLen = some c) :
    exec (.unpCheck w h g n) s = .next (raise c g n s) := by
  rw [exec, execUnpCheck, fails]

theorem exec_unpCheck_of_none {w h g n : Word} {s : State} (passes : rawCheck w h g n s.srcLen = none) :
    exec (.unpCheck w h g n) s = .next s := by
  rw [exec, execUnpCheck, passes]

theorem exec_of_runsRawPath {i : Instr} {s : State} (runs : RunsRawPath s i) : exec i s = .next (rawPath s) := by
  rcases runs with rfl | ⟨rfl, idle, hw, hh, tag⟩
  · rfl
  · rw [exec_decode_dispatch idle hw hh, tag]
    rfl

theorem rawPath_of_some {s : State} {c : Cause}
    (fails : rawCheck s.cfg.width s.cfg.height s.cfg.pfFlags s.cfg.rgbBitCount s.srcLen = some c) :
    rawPath s = raise c s.cfg.pfFlags s.cfg.rgbBitCount s := by
  rw [rawPath, fails]

theorem rawPath_of_none {s : State}
    (passes : rawCheck s.cfg.width s.cfg.height s.cfg.pfFlags s.cfg.rgbBitCount s.srcLen = none) :
    rawPath s = becomeReady surfLazy s := by
  rw [rawPath, passes]

/-! ### RESET -/

theorem readReg_resetUnit {n : Nat} (hn : n ≤ 11) (s : State) : readReg n (resetUnit s) = some 0#32 := by
  interval_cases n <;> rfl

/-- STATUS after the refusal of a zero dimension over a cleared STATUS (10_state.md R22). -/
theorem setOutcome_refZeroDim : setOutcome stError surfNone (causeCode .refZeroDim) 0#32 = 0x92#32 := by decide

/-! ### A field widened by its own high bits (41_bc3_block.md R122) -/

theorem toNat_widened {v i j : Nat} (high : v / 2 ^ j < 2 ^ i) (fits : 2 ^ i * v + v / 2 ^ j < 256) :
    (BitVec.ofNat 8 ((v <<< i) ||| (v >>> j))).toNat = 2 ^ i * v + v / 2 ^ j := by
  rw [Nat.shiftRight_eq_div_pow, ← Nat.shiftLeft_add_eq_or_of_lt high, Nat.shiftLeft_eq, Nat.mul_comm v,
    BitVec.toNat_ofNat, Nat.mod_eq_of_lt fits]

theorem toNat_exp565_r (c : BitVec 16) : (exp565 c).r.toNat = 8 * (c.toNat / 2 ^ 11) + c.toNat / 2 ^ 11 / 4 := by
  have hc := c.isLt
  have bits : (c.extractLsb' 11 5).toNat = c.toNat / 2 ^ 11 := by
    rw [BitVec.extractLsb'_toNat, Nat.shiftRight_eq_div_pow, Nat.mod_eq_of_lt (by omega)]
  rw [← bits]
  exact toNat_widened (i := 3) (j := 2) (by omega) (by omega)

theorem toNat_exp565_g (c : BitVec 16) :
    (exp565 c).g.toNat = 4 * (c.toNat / 2 ^ 5 % 2 ^ 6) + c.toNat / 2 ^ 5 % 2 ^ 6 / 16 := by
  have bits : (c.extractLsb' 5 6).toNat = c.toNat / 2 ^ 5 % 2 ^ 6 := by
    rw [BitVec.extractLsb'_toNat, Nat.shiftRight_eq_div_pow]
  rw [← bits]
  exact toNat_widened (i := 2) (j := 4) (by omega) (by omega)

theorem toNat_exp565_b (c : BitVec 16) : (exp565 c).b.toNat = 8 * (c.toNat % 2 ^ 5) + c.toNat % 2 ^ 5 / 4 := by
  have bits : (c.extractLsb' 0 5).toNat = c.toNat % 2 ^ 5 := by
    rw [BitVec.extractLsb'_toNat, Nat.shiftRight_zero]
  rw [← bits]
  exact toNat_widened (i := 3) (j := 2) (by omega) (by omega)

/-! ### The statements -/

/-- Settles O32: the first error and the kind agree, so both end the same way, and an image stored from one SRC is
determined by it. -/
theorem decodeDependsOnlyOnRegistersAndSource : Obligations.DecodeDependsOnlyOnRegistersAndSource := by
  intro s s' t t' idle idle' _ cfg src srcLen dstCap runs runs'
  have firstSame := firstError_congr cfg srcLen dstCap
  cases exec_decode_ends idle runs with
  | raised first =>
    cases exec_decode_ends idle' runs' with
    | raised first' =>
      obtain rfl := Option.some.inj (first.symm.trans (firstSame.trans first'))
      simp [isMaterialised, surfNone, surfMaterialised]
    | lazy first' | materialised first' => cases first.symm.trans (firstSame.trans first')
  | lazy first kind =>
    cases exec_decode_ends idle' runs' with
    | raised first' => cases first.symm.trans (firstSame.trans first')
    | lazy => simp [isMaterialised, surfLazy, surfMaterialised]
    | materialised _ kind' => cases kind.symm.trans (cfg ▸ kind')
  | materialised first kind _ run =>
    cases exec_decode_ends idle' runs' with
    | raised first' => cases first.symm.trans (firstSame.trans first')
    | lazy _ kind' => cases kind.symm.trans (cfg ▸ kind')
    | materialised _ _ _ run' =>
      refine ⟨by simp, by simp, by simp, fun _ a ha => ?_⟩
      rw [← cfg] at run'
      exact holdsImage_read_unique src (imageRun_holdsImage run) (imageRun_holdsImage run') ha

/-- Settles O22: the tag's row and DECODE past its first checks are one dispatch. -/
theorem tagSelectsPathOfDecode : Obligations.TagSelectsPathOfDecode := by
  intro s idle hw hh
  refine ⟨decodeTag s.cfg.fourcc, ?_, ?_⟩
  · have reads := decode_oneWord (p := .tag) (by decide) s.cfg.fourcc (by decide)
    rw [decodeOperands, field_toNat] at reads
    exact reads
  · rw [exec_decode_dispatch idle hw hh, exec_decodeTag]

/-- Settles O20: the row is the `raise` of 40_dispatch.md R92. -/
theorem kindUnsupportedRecordsTag : Obligations.KindUnsupportedRecordsTag :=
  fun f s => ⟨_, rfl, raisedFrom_raise .unsupportedFormatError f 0#32 s, rfl, rfl⟩

/-- Settles O21: the row and DECODE on its tag are the same refusal. -/
theorem bc1IsRefused : Obligations.Bc1IsRefused := by
  refine ⟨fun s => ⟨_, rfl, raisedFrom_raise ..⟩, fun s idle hw hh tag => ?_⟩
  have runs : exec .decode s = .next (raisePlain .refBc1External s) := by
    rw [exec_decode_dispatch idle hw hh, tag]
    rfl
  exact ⟨_, runs, raisedFrom_raise ..⟩

/-- Settles O25, by the checks in their order: flags or bit count, length, none. -/
theorem unpCheckTestsInOrder : Obligations.UnpCheckTestsInOrder := by
  intro w h g n s
  refine ⟨fun flags => ?_, fun _ illegal => ?_, fun flags legal short => ?_, fun flags legal enough => ?_⟩
  · exact ⟨_, exec_unpCheck_of_some (rawCheck_unsupported (.inl flags)), raisedFrom_raise .., rfl, rfl⟩
  · exact ⟨_, exec_unpCheck_of_some (rawCheck_unsupported (.inr illegal)), raisedFrom_raise .., rfl, rfl⟩
  · exact ⟨_, exec_unpCheck_of_some (rawCheck_short flags legal short), raisedFrom_raise ..⟩
  · exact exec_unpCheck_of_none (rawCheck_none.mpr ⟨flags, legal, enough⟩)

/-- Settles O26: the path raises what the checks over the registers give. -/
theorem rawPathRaisesCheckErrors : Obligations.RawPathRaisesCheckErrors := by
  intro i s runs
  rw [exec_of_runsRawPath runs]
  refine ⟨fun fails => ?_, fun flags legal short => ?_⟩
  · rw [rawPath_of_some (rawCheck_unsupported fails)]
    exact ⟨_, rfl, raisedFrom_raise .., rfl, rfl⟩
  · rw [← rawPitch_legal legal] at short
    rw [rawPath_of_some (rawCheck_short flags legal short)]
    exact ⟨_, rfl, raisedFrom_raise ..⟩

/-- Settles O27: the checks pass, and a success on this path writes STATUS, the info registers and the response. -/
theorem rawDecodeMakesLazySurface : Obligations.RawDecodeMakesLazySurface := by
  intro i s runs flags legal enough
  rw [← rawPitch_legal legal] at enough
  rw [exec_of_runsRawPath runs, rawPath_of_none (rawCheck_none.mpr ⟨flags, legal, enough⟩)]
  exact ⟨_, rfl, readyFrom_becomeReady surfLazy s, rfl, rfl, rfl⟩

/-- Settles O57: the row is the `raise` of 43_unpacker.md R161. -/
theorem badBitCountIsUnsupported : Obligations.BadBitCountIsUnsupported :=
  fun n s => ⟨_, rfl, raisedFrom_raise .unsupportedFormatError s.cfg.pfFlags n s, rfl, rfl⟩

/-- Settles O58: the row puts KindOf of its operand. -/
theorem kindDecodeMapsTag : Obligations.KindDecodeMapsTag :=
  fun _ _ => rfl

/-- Settles O13: the fields of `resetUnit`, whose dimensions of 0 the next DECODE refuses. -/
theorem resetLeavesInitialState : Obligations.ResetLeavesInitialState := by
  intro s
  have refuses : exec .decode (resetUnit s) = .next (raisePlain .refZeroDim (resetUnit s)) :=
    exec_decode_zeroDim rfl (.inl rfl)
  exact ⟨resetUnit s, rfl, fun n hn => readReg_resetUnit hn s, rfl, fun _ => rfl, fun _ => rfl, rfl, rfl, rfl, rfl, rfl,
    _, refuses, raisedFrom_raise .., setOutcome_refZeroDim⟩

/-- Settles O10: a reserved code is a violation in every state. -/
theorem reservedCommandIsViolation : Obligations.ReservedCommandIsViolation :=
  fun cmd _ => exec_violationFrom (i := .reservedCmd cmd) trivial

/-- Settles O1, by the first waiting request and what it decodes to. -/
theorem stepRunsDecodedInstruction : Obligations.StepRunsDecodedInstruction := by
  refine ⟨fun s r rest i waits decodes => ?_, fun s none => ?_, fun s r rest why waits rejects => ?_⟩
  · simp only [step, waits, decodes]
  · simp only [step, none]
  · simp only [step, waits, rejects]

/-- Settles O45: the operation the selector decodes to puts AlphaOf of the code. -/
theorem alphaSelectorComputesAlphaOf : Obligations.AlphaSelectorComputesAlphaOf :=
  alphaSelector_computes_alphaOf

/-- Settles O46: the operation the code decodes to puts ColourOf of the code. -/
theorem colourCodeComputesColourOf : Obligations.ColourCodeComputesColourOf :=
  colourSelector_computes_colourOf

/-- Settles O44: the meanings of the rows do not look at the order of the endpoints. -/
theorem interpolationTakesModeAsPresented : Obligations.InterpolationTakesModeAsPresented :=
  fun s => ⟨exec_lerp7Rows s, exec_lerp5Rows s⟩

/-- Settles O47, field by field. -/
theorem rgb565ExpandsByReplication : Obligations.Rgb565ExpandsByReplication :=
  fun c _ => ⟨exp565 c, rfl, toNat_exp565_r c, toNat_exp565_g c, toNat_exp565_b c⟩

end Sys2Proof.Machine
end

section
/-! What any instruction can do, said once (30_encoding.md R84, R88), and from it the statements about every instruction:
the frame of the port and the capacities, the moves of STATE (10_state.md R24), the immutable surface (44_surface.md R185),
the invariant of the unit, and the completion of every host command (70_reset_and_hazards.md R227). -/

namespace Sys2Proof.Machine

/-! ### The ways an instruction can end -/

/-- The next states of a datapath row: nothing written, results, latches, DST, the image, or the end of a path of DECODE. -/
inductive RowEnds (s : State) : State → Prop where
  | keep : RowEnds s s
  | results (r : Results) : RowEnds s (setResults r s)
  | latches (l : Latches) : RowEnds s (setLatches l s)
  | block (r : Results) (l : Latches) : RowEnds s (setResults r (setLatches l s))
  | put {w h : Nat} {m : Memory} (kept : PutKeeps s.dstCap w h s.dst m) : RowEnds s (setDst m s)
  | image {w h : Nat} {s' : State} (run : imageRun w h s = .ok s') : RowEnds s s'
  | raised {c : Cause} (raisable : c ≠ .formatError) (info0 info1 : Word) : RowEnds s (raise c info0 info1 s)
  | lazy (checked : rawCheck s.cfg.width s.cfg.height s.cfg.pfFlags s.cfg.rgbBitCount s.srcLen = none) :
      RowEnds s (becomeReady surfLazy s)
  | materialised (checked : imageCheck s.cfg.width.toNat s.cfg.height.toNat s = none) {s' : State}
      (run : imageRun s.cfg.width.toNat s.cfg.height.toNat s = .ok s') : RowEnds s (becomeReady surfMaterialised s')

/-- The commands that only read: RDREG, AT and RDDST. -/
def isLookup : Instr → Bool
  | .rdreg _ | .atXY _ _ | .rddst _ => true
  | _ => false

/-- The next states of every instruction. -/
inductive Ends (s : State) : Instr → State → Prop where
  | violation {i : Instr} (violates : Violates s i) : Ends s i (protocolViolation s)
  | reset : Ends s .reset (resetUnit s)
  | release (notIdle : isIdle s = false) : Ends s .release (releaseSurface s)
  | wrcfg {a0 a1 : Word} (idle : isIdle s = true) :
      Ends s (.wrcfg a0 a1) (respond true 0#32 { s with cfg := writeCfg a0.toNat a1 s.cfg })
  | loadsrc {n : Word} {payload : List Byte} (idle : isIdle s = true) (fits : beyondCap s.srcCap n.toNat = false) :
      Ends s (.loadsrc n payload) (respond true 0#32 { s with src := Memory.ofBytes 0 payload, srcLen := n.toNat })
  | decode {t : State} (idle : isIdle s = true) (ends : DecodeEnds s t) : Ends s .decode t
  | answer {i : Instr} (lookup : isLookup i = true) (ok : Bool) (val : Word) : Ends s i (respond ok val s)
  | answerAny {i : Instr} (lookup : isLookup i = true) (ok : Bool) : Ends s i (respondAny ok s)
  | row {i : Instr} {t : State} (datapath : isCommand i = false) (ends : RowEnds s t) : Ends s i t

/-! ### Every instruction ends in one of them -/

theorem rawCheck_ne_formatError {w h g n : Word} {len : Nat} {c : Cause} (fails : rawCheck w h g n len = some c) :
    c ≠ .formatError := by
  rcases rawCheck_some fails with rfl | rfl <;> decide

theorem imageCheck_ne_formatError {w h : Nat} {s : State} {c : Cause} (fails : imageCheck w h s = some c) :
    c ≠ .formatError := by
  rintro rfl
  simp only [imageCheck] at fails
  split at fails
  · cases fails
  · split at fails <;> cases fails

/-- No path of DECODE raises the FormatError, which is the container parser's (60_exceptions.md R190). -/
theorem firstError_ne_formatError {s : State} {c : Cause} (first : firstError s = some c) : c ≠ .formatError := by
  by_cases zero : s.cfg.width = 0#32 ∨ s.cfg.height = 0#32
  · obtain rfl := Option.some.inj ((if_pos zero).symm.trans first)
    decide
  · replace first := (if_neg zero).symm.trans first
    cases kind : kindOf s.cfg.fourcc with
    | none => exact rawCheck_ne_formatError (kind ▸ first)
    | bc3 => exact imageCheck_ne_formatError (kind ▸ first)
    | bc1 | unsupported f =>
      rw [kind] at first
      obtain rfl := Option.some.inj first
      decide

theorem DecodeEnds.rowEnds {s t : State} (ends : DecodeEnds s t) : RowEnds s t := by
  cases ends with
  | raised first => exact .raised (firstError_ne_formatError first) _ _
  | lazy _ _ checked => exact .lazy checked
  | materialised _ _ checked run => exact .materialised checked run

theorem rowEnds_rawPath (s : State) : RowEnds s (rawPath s) := by
  rcases rawPath_cases s with ⟨c, check, path⟩ | ⟨check, path⟩
  · rw [path]
    exact .raised (rawCheck_ne_formatError check) _ _
  · rw [path]
    exact .lazy check

theorem rowEnds_bc3Path {s t : State} (runs : bc3Path s = .next t) : RowEnds s t := by
  rcases bc3Path_next runs with ⟨c, check, rfl⟩ | ⟨check, s', run, rfl⟩
  · exact .raised (imageCheck_ne_formatError check) _ _
  · exact .materialised check run

theorem rowEnds_bc3Image {w h : Word} {s t : State} (runs : exec (.bc3Image w h) s = .next t) : RowEnds s t := by
  cases check : imageCheck w.toNat h.toNat s with
  | some c =>
    rw [exec_bc3Image_of_imageCheck check] at runs
    obtain rfl := Host.Outcome.next.inj runs
    exact .raised (imageCheck_ne_formatError check) _ _
  | none =>
    rw [exec, execBc3Image, check] at runs
    obtain ⟨_, run, rfl⟩ := finish_next runs
    exact .image run

theorem rowEnds_unpCheck {w h g n : Word} {s t : State} (runs : exec (.unpCheck w h g n) s = .next t) : RowEnds s t := by
  cases check : rawCheck w h g n s.srcLen with
  | some c =>
    rw [exec_unpCheck_of_some check] at runs
    obtain rfl := Host.Outcome.next.inj runs
    exact .raised (rawCheck_ne_formatError check) _ _
  | none =>
    rw [exec_unpCheck_of_none check] at runs
    obtain rfl := Host.Outcome.next.inj runs
    exact .keep

theorem ends_rdreg {a0 : Word} {s t : State} (number : a0.toNat ≤ 11) (runs : exec (.rdreg a0) s = .next t) :
    Ends s (.rdreg a0) t := by
  by_cases defined : a0.toNat ≤ 9 ∨ errInfoDefined s = true
  · obtain ⟨v, reads⟩ := Option.isSome_iff_exists.mp (readReg_isSome number s)
    rw [exec_rdreg_defined reads defined] at runs
    obtain rfl := Host.Outcome.next.inj runs
    exact .answer rfl _ _
  · obtain ⟨above, info⟩ := not_or.mp defined
    rw [exec_rdreg_undefined (by omega) (by simpa using info)] at runs
    obtain rfl := Host.Outcome.next.inj runs
    exact .answerAny rfl _

theorem ends_atXY {x y : Word} {s t : State} (ready : isReady s = true) (runs : exec (.atXY x y) s = .next t) :
    Ends s (.atXY x y) t := by
  by_cases out : s.cfg.width.toNat ≤ x.toNat ∨ s.cfg.height.toNat ≤ y.toNat
  · rw [exec_at_outside ready out] at runs
    obtain rfl := Host.Outcome.next.inj runs
    exact .answerAny rfl _
  have hx : x.toNat < s.cfg.width.toNat := by omega
  have hy : y.toNat < s.cfg.height.toNat := by omega
  cases stored : isMaterialised s with
  | true =>
    rw [exec_at_materialised ready stored hx hy] at runs
    obtain rfl := Host.Outcome.next.inj runs
    exact .answer rfl _ _
  | false =>
    simp only [exec, execAt, ready, stored, inside_iff.mpr ⟨hx, hy⟩, Bool.not_true, Bool.false_eq_true, if_false] at runs
    obtain ⟨_, _, rfl⟩ := finish_next runs
    exact .answer rfl _ _

theorem ends_rddst {k : Word} {s t : State} (ready : isReady s = true) (stored : isMaterialised s = true)
    (runs : exec (.rddst k) s = .next t) : Ends s (.rddst k) t := by
  by_cases within : k.toNat < 4 * (s.cfg.width.toNat * s.cfg.height.toNat)
  · rw [exec_rddst_inside ready stored within] at runs
    obtain rfl := Host.Outcome.next.inj runs
    exact .answer rfl _ _
  · rw [exec_rddst_past ready stored (by omega)] at runs
    obtain rfl := Host.Outcome.next.inj runs
    exact .answerAny rfl _

theorem exec_ends {i : Instr} {s t : State} (runs : exec i s = .next t) : Ends s i t := by
  by_cases violates : Violates s i
  case pos =>
    rw [exec_of_violates violates] at runs
    obtain rfl := Host.Outcome.next.inj runs
    exact .violation violates
  cases i with
  | reset =>
    obtain rfl := Host.Outcome.next.inj runs
    exact .reset
  | wrcfg a0 a1 =>
    obtain ⟨idle, number⟩ : isIdle s = true ∧ a0.toNat ≤ 8 := by simpa [Violates] using violates
    rw [exec_wrcfg_served idle number] at runs
    obtain rfl := Host.Outcome.next.inj runs
    exact .wrcfg idle
  | rdreg a0 => exact ends_rdreg (Nat.le_of_not_lt violates) runs
  | loadsrc n payload =>
    obtain ⟨idle, fits⟩ : isIdle s = true ∧ beyondCap s.srcCap n.toNat = false := by simpa [Violates] using violates
    rw [exec_loadsrc_served idle fits] at runs
    obtain rfl := Host.Outcome.next.inj runs
    exact .loadsrc idle fits
  | decode =>
    have idle : isIdle s = true := by simpa [Violates] using violates
    exact .decode idle (exec_decode_ends idle runs)
  | atXY x y => exact ends_atXY (by simpa [Violates] using violates) runs
  | rddst k =>
    obtain ⟨ready, stored⟩ : isReady s = true ∧ isMaterialised s = true := by simpa [Violates] using violates
    exact ends_rddst ready stored runs
  | release =>
    have notIdle : isIdle s = false := by simpa [Violates] using violates
    rw [exec_release_served notIdle] at runs
    obtain rfl := Host.Outcome.next.inj runs
    exact .release notIdle
  | reservedCmd cmd => exact absurd trivial violates
  | kindNone =>
    obtain rfl := Host.Outcome.next.inj runs
    exact .row rfl (rowEnds_rawPath s)
  | kindBc3 => exact .row rfl (rowEnds_bc3Path runs)
  | kindBc1 | kindUnsupported f | unpBadbits n =>
    obtain rfl := Host.Outcome.next.inj runs
    exact .row rfl (.raised (by decide) _ _)
  | bc3Image w h => exact .row rfl (rowEnds_bc3Image runs)
  | unpCheck w h g n => exact .row rfl (rowEnds_unpCheck runs)
  | texelPut x y p =>
    obtain ⟨m, put, rfl⟩ := finish_next runs
    exact .row rfl (.put (putTexel_keeps put))
  | unpFetch8 x y | unpFetch16 x y | unpFetch32 x y | unpFetch64 x y | unpPixel x y =>
    obtain ⟨_, _, rfl⟩ := finish_next runs
    exact .row rfl (.results _)
  | blkParse v =>
    obtain rfl := Host.Outcome.next.inj runs
    exact .row rfl (.latches _)
  | bc3Block v =>
    obtain rfl := Host.Outcome.next.inj runs
    exact .row rfl (.block _ _)
  | _ =>
    obtain rfl := Host.Outcome.next.inj runs
    exact .row rfl (.results _)

/-! ### The frame -/

/-- What no instruction touches. -/
def SamePort (s t : State) : Prop := t.pending = s.pending ∧ t.srcCap = s.srcCap ∧ t.dstCap = s.dstCap

theorem samePort_imageRun {w h : Nat} {s s' : State} (run : imageRun w h s = .ok s') : SamePort s s' := by
  obtain ⟨_, _, rfl, _⟩ := imageRun_ok run
  exact ⟨rfl, rfl, rfl⟩

theorem RowEnds.samePort {s t : State} (ends : RowEnds s t) : SamePort s t := by
  cases ends with
  | image run => exact samePort_imageRun run
  | materialised _ run =>
    have loop := samePort_imageRun run
    exact loop
  | keep | results | latches | block | put | raised | lazy => exact ⟨rfl, rfl, rfl⟩

theorem Ends.samePort {i : Instr} {s t : State} (ends : Ends s i t) : SamePort s t := by
  cases ends with
  | decode _ ends => exact ends.rowEnds.samePort
  | row _ ends => exact ends.samePort
  | violation | reset | release | wrcfg | loadsrc | answer | answerAny => exact ⟨rfl, rfl, rfl⟩

/-! ### STATE (10_state.md R24) -/

theorem isIdle_iff {s : State} : isIdle s = true ↔ statusState s.status = stIdle := beq_iff_eq

theorem isReady_iff {s : State} : isReady s = true ↔ statusState s.status = stReady := beq_iff_eq

theorem isMaterialised_iff {s : State} : isMaterialised s = true ↔ statusSurf s.status = surfMaterialised := beq_iff_eq

theorem not_idle_of_ready {s : State} (ready : isReady s = true) : isIdle s = false := by
  rw [isIdle, isReady_iff.mp ready]
  rfl

theorem DecodeEnds.ready_or_error {s t : State} (ends : DecodeEnds s t) :
    statusState t.status = stReady ∨ statusState t.status = stError := by
  cases ends with
  | raised => exact .inr (statusState_setOutcome ..)
  | lazy | materialised => exact .inl (statusState_setOutcome ..)

theorem statusState_protocolViolation (s : State) :
    statusState (protocolViolation s).status = statusState s.status := statusState_setProto s.status

theorem ne_of_isLookup {i : Instr} (lookup : isLookup i = true) : i ≠ .reset ∧ i ≠ .release ∧ i ≠ .decode := by
  refine ⟨?_, ?_, ?_⟩
  all_goals
    rintro rfl
    cases lookup

/-! ### The invariant, part by part -/

/-- STATE, SURF and ERR written together are legal over any legal STATUS where they are over a cleared one. -/
theorem statusLegal_setOutcome {st surf : BitVec 2} {err : BitVec 4} {w : Word} (legal : StatusLegal w)
    (fields : StatusLegal (setOutcome st surf err 0#32)) : StatusLegal (setOutcome st surf err w) := by
  obtain ⟨_, _, _, _, _, high⟩ := legal
  simpa [StatusLegal, high] using fields

theorem statusLegal_setProto {w : Word} (legal : StatusLegal w) : StatusLegal (setProto w) := by
  simpa [StatusLegal] using legal

theorem statusLegal_error {c : Cause} (raisable : c ≠ .formatError) :
    StatusLegal (setOutcome stError surfNone (causeCode c) 0#32) := by
  unfold StatusLegal
  cases c with
  | formatError => exact absurd rfl raisable
  | ioError | unsupportedFormatError | decodeError | refBc1External | refZeroDim | refDstCap => decide

theorem statusLegal_idle : StatusLegal (setOutcome stIdle surfNone 0#4 0#32) := by
  unfold StatusLegal
  decide

theorem statusLegal_ready {surf : BitVec 2} (live : surf = surfMaterialised ∨ surf = surfLazy) :
    StatusLegal (setOutcome stReady surf 0#4 0#32) := by
  unfold StatusLegal
  rcases live with rfl | rfl <;> decide

/-- With no surface live there is nothing to store and nothing to check. -/
theorem surfaces_of_none {s : State} (surf : statusSurf s.status = surfNone) : SurfaceStored s ∧ SurfaceChecked s := by
  refine ⟨fun stored => ?_, fun lazy => ?_⟩
  · rw [isMaterialised_iff, surf] at stored
    cases stored
  · rw [surf] at lazy
    cases lazy

theorem dstLegal_of_anyValue {s : State} (any : s.dst = Memory.anyValue) : DstLegal s := by
  rw [DstLegal, any]
  exact ⟨wf_anyValue, fun a listed => by simp at listed⟩

/-- In IDLE no surface is live. -/
theorem surfNone_of_idle {s : State} (legal : StatusLegal s.status) (idle : isIdle s = true) :
    statusSurf s.status = surfNone := by
  obtain ⟨_, _, live, _⟩ := legal
  by_contra surf
  have ready := live.mp surf
  rw [isIdle_iff.mp idle] at ready
  cases ready

/-- In READY a surface that is not materialised is lazy. -/
theorem surfLazy_of_ready {s : State} (legal : StatusLegal s.status) (ready : isReady s = true)
    (unstored : isMaterialised s = false) : statusSurf s.status = surfLazy := by
  obtain ⟨_, values, live, _⟩ := legal
  rcases values with surf | surf | surf
  · exact absurd surf (live.mpr (isReady_iff.mp ready))
  · rw [isMaterialised_iff.mpr surf] at unstored
    cases unstored
  · exact surf

/-! ### The updates that keep the invariant -/

theorem unitInv_protocolViolation {s : State} (inv : UnitInv s) : UnitInv (protocolViolation s) := by
  obtain ⟨legal, loaded, dst, stored, checked⟩ := inv
  refine ⟨statusLegal_setProto legal, loaded, dst, fun live => stored ?_, fun lazy => checked ?_⟩
  · rwa [isMaterialised_iff, protocolViolation_status, statusSurf_setProto, ← isMaterialised_iff] at live
  · rwa [protocolViolation_status, statusSurf_setProto] at lazy

theorem unitInv_raise {c : Cause} (raisable : c ≠ .formatError) (info0 info1 : Word) {s : State} (inv : UnitInv s) :
    UnitInv (raise c info0 info1 s) := by
  obtain ⟨legal, loaded, _, _, _⟩ := inv
  exact ⟨statusLegal_setOutcome legal (statusLegal_error raisable), loaded, dstLegal_of_anyValue rfl,
    surfaces_of_none (statusSurf_setOutcome ..)⟩

theorem unitInv_releaseSurface {s : State} (inv : UnitInv s) : UnitInv (releaseSurface s) := by
  obtain ⟨legal, loaded, _, _, _⟩ := inv
  exact ⟨statusLegal_setOutcome legal statusLegal_idle, loaded, dstLegal_of_anyValue rfl,
    surfaces_of_none (statusSurf_setOutcome ..)⟩

theorem srcLoaded_empty {s : State} (src : s.src = []) (srcLen : s.srcLen = 0) : SrcLoaded s := by
  rw [SrcLoaded, src, srcLen]
  refine ⟨List.Pairwise.nil, fun a => ?_, ?_⟩
  · simp [Memory.read, Memory.unlisted]
  · cases s.srcCap <;> simp [beyondCap]

/-- A unit with a cleared STATUS and empty memories has the invariant, whatever else it holds. -/
theorem unitInv_cleared {s : State} (status : s.status = 0#32) (src : s.src = []) (srcLen : s.srcLen = 0)
    (dst : s.dst = Memory.anyValue) : UnitInv s := by
  refine ⟨?_, srcLoaded_empty src srcLen, dstLegal_of_anyValue dst, surfaces_of_none ?_⟩
  · rw [status, StatusLegal]
    decide
  · rw [status]
    decide

theorem unitInv_wrcfg {s : State} (inv : UnitInv s) (idle : isIdle s = true) (cfg : CfgRegs) :
    UnitInv { s with cfg := cfg } := by
  obtain ⟨legal, loaded, dst, _, _⟩ := inv
  exact ⟨legal, loaded, dst, surfaces_of_none (surfNone_of_idle (s := s) legal idle)⟩

theorem unitInv_loadsrc {s : State} (inv : UnitInv s) (idle : isIdle s = true) (payload : List Byte)
    (fits : beyondCap s.srcCap payload.length = false) :
    UnitInv { s with src := Memory.ofBytes 0 payload, srcLen := payload.length } := by
  obtain ⟨legal, _, dst, _, _⟩ := inv
  exact ⟨legal, ⟨wf_ofBytes payload 0, read_ofBytes_isSome payload, fits⟩, dst,
    surfaces_of_none (surfNone_of_idle (s := s) legal idle)⟩

/-- Texels put into DST keep it legal and keep the live surface stored. -/
theorem unitInv_setDst {s : State} (inv : UnitInv s) {w h : Nat} {m : Memory} (kept : PutKeeps s.dstCap w h s.dst m) :
    UnitInv (setDst m s) := by
  obtain ⟨legal, loaded, ⟨wf, capped⟩, stored, checked⟩ := inv
  refine ⟨legal, loaded, ⟨kept.wf wf, fun a listed => ?_⟩, fun live => ?_, checked⟩
  · exact (kept.capped a listed).elim (capped a) id
  · obtain ⟨fits, listed⟩ := stored live
    exact ⟨fits, fun a ha => kept.listed a (listed a ha)⟩

theorem unitInv_imageRun {s s' : State} (inv : UnitInv s) {w h : Nat} (run : imageRun w h s = .ok s') : UnitInv s' := by
  obtain ⟨k, _, rfl, kept⟩ := imageRun_ok run
  exact unitInv_setDst inv kept

theorem unitInv_becomeReady_lazy {s : State} (inv : UnitInv s)
    (checked : rawCheck s.cfg.width s.cfg.height s.cfg.pfFlags s.cfg.rgbBitCount s.srcLen = none) :
    UnitInv (becomeReady surfLazy s) := by
  obtain ⟨legal, loaded, dst, _, _⟩ := inv
  refine ⟨statusLegal_setOutcome legal (statusLegal_ready (.inr rfl)), loaded, dst, fun live => ?_, fun _ => checked⟩
  rw [isMaterialised_iff, becomeReady_status, statusSurf_setOutcome] at live
  cases live

/-- The image the loop left is the materialised surface, every byte of it listed. -/
theorem unitInv_becomeReady_materialised {s s' : State} (inv : UnitInv s)
    (checked : imageCheck s.cfg.width.toNat s.cfg.height.toNat s = none)
    (run : imageRun s.cfg.width.toNat s.cfg.height.toNat s = .ok s') : UnitInv (becomeReady surfMaterialised s') := by
  obtain ⟨legal, loaded, dst, _, _⟩ := unitInv_imageRun inv run
  obtain ⟨_, fits⟩ := imageCheck_none.mp checked
  have image := imageRun_holdsImage run
  refine ⟨statusLegal_setOutcome legal (statusLegal_ready (.inl rfl)), loaded, dst, fun _ => ?_, fun lazy => ?_⟩
  · obtain ⟨_, _, rfl, _⟩ := imageRun_ok run
    exact ⟨fits, fun a ha => holdsImage_listed image ha⟩
  · rw [becomeReady_status, statusSurf_setOutcome] at lazy
    cases lazy

theorem RowEnds.unitInv {s t : State} (ends : RowEnds s t) (inv : UnitInv s) : UnitInv t := by
  cases ends with
  | keep | results | latches | block => exact inv
  | put kept => exact unitInv_setDst inv kept
  | image run => exact unitInv_imageRun inv run
  | raised raisable => exact unitInv_raise raisable _ _ inv
  | lazy checked => exact unitInv_becomeReady_lazy inv checked
  | materialised checked run => exact unitInv_becomeReady_materialised inv checked run

theorem Ends.unitInv {i : Instr} {s t : State} (ends : Ends s i t) (wf : Instr.wellFormed i = true) (inv : UnitInv s) :
    UnitInv t := by
  cases ends with
  | violation => exact unitInv_protocolViolation inv
  | reset => exact unitInv_cleared rfl rfl rfl rfl
  | release => exact unitInv_releaseSurface inv
  | wrcfg idle => exact unitInv_wrcfg inv idle _
  | @loadsrc n payload idle fits =>
    have count : payload.length = n.toNat := beq_iff_eq.mp wf
    rw [← count] at fits ⊢
    exact unitInv_loadsrc inv idle payload fits
  | decode _ ends => exact ends.rowEnds.unitInv inv
  | answer | answerAny => exact inv
  | row _ ends => exact ends.unitInv inv

/-! ### Every host command completes -/

/-- AT from a state with the invariant: a materialised pixel is read, a lazy one unpacks. -/
theorem exec_at_completes {x y : Word} {s : State} (inv : UnitInv s) (ready : isReady s = true) :
    ∃ t, exec (.atXY x y) s = .next t := by
  by_cases out : s.cfg.width.toNat ≤ x.toNat ∨ s.cfg.height.toNat ≤ y.toNat
  · exact ⟨_, exec_at_outside ready out⟩
  have hx : x.toNat < s.cfg.width.toNat := by omega
  have hy : y.toNat < s.cfg.height.toNat := by omega
  cases stored : isMaterialised s with
  | true => exact ⟨_, exec_at_materialised ready stored hx hy⟩
  | false =>
    obtain ⟨legal, loaded, _, _, checked⟩ := inv
    obtain ⟨_, _, _, fetched⟩ := fetchPixel_checked loaded (checked (surfLazy_of_ready legal ready stored)) hx hy
    exact ⟨_, exec_at_lazy ready stored hx hy (rawPixel_of_fetchPixel fetched)⟩

theorem exec_rdreg_completes (a0 : Word) (s : State) : ∃ t, exec (.rdreg a0) s = .next t := by
  simp only [exec, execRdreg]
  split
  · exact ⟨_, rfl⟩
  · split <;> exact ⟨_, rfl⟩

theorem exec_rddst_completes (k : Word) (s : State) : ∃ t, exec (.rddst k) s = .next t := by
  simp only [exec, execRddst]
  split
  · exact ⟨_, rfl⟩
  · split <;> exact ⟨_, rfl⟩

theorem exec_command_completes {i : Instr} {s : State} (inv : UnitInv s) (command : isCommand i = true) :
    ∃ t, exec i s = .next t := by
  by_cases violates : Violates s i
  · exact ⟨_, exec_of_violates violates⟩
  cases i with
  | reset => exact ⟨_, rfl⟩
  | wrcfg a0 a1 =>
    obtain ⟨idle, number⟩ : isIdle s = true ∧ a0.toNat ≤ 8 := by simpa [Violates] using violates
    exact ⟨_, exec_wrcfg_served idle number a1⟩
  | rdreg a0 => exact exec_rdreg_completes a0 s
  | loadsrc n payload =>
    obtain ⟨idle, fits⟩ : isIdle s = true ∧ beyondCap s.srcCap n.toNat = false := by simpa [Violates] using violates
    exact ⟨_, exec_loadsrc_served idle fits payload⟩
  | decode =>
    obtain ⟨_, loaded, _⟩ := inv
    obtain ⟨t, runs, _⟩ := decode_reports_firstError (by simpa [Violates] using violates) loaded
    exact ⟨t, runs⟩
  | atXY x y => exact exec_at_completes inv (by simpa [Violates] using violates)
  | rddst k => exact exec_rddst_completes k s
  | release => exact ⟨_, exec_release_served (by simpa [Violates] using violates)⟩
  | reservedCmd cmd => exact absurd trivial violates
  | _ => cases command

/-! ### The statements -/

/-- Settles O5: no way of ending writes the port or the capacities. -/
theorem instructionsKeepPortAndCapacities : Obligations.InstructionsKeepPortAndCapacities :=
  fun _ _ _ runs => (exec_ends runs).samePort

/-- Settles O11, by the ways an instruction can end: the rows that write STATE are not commands. -/
theorem stateMovesOnlyAsTable : Obligations.StateMovesOnlyAsTable := by
  intro i s t command runs
  cases exec_ends runs with
  | violation violates =>
    rw [statusState_protocolViolation]
    refine ⟨?_, ?_, ?_, fun _ _ => rfl, fun _ _ _ => rfl⟩
    · rintro rfl
      exact violates.elim
    · rintro rfl
      exact isIdle_iff.mp violates
    · rintro rfl idle
      cases idle.symm.trans violates
  | reset => exact ⟨fun _ => rfl, nofun, nofun, nofun, fun other => absurd rfl other⟩
  | release => exact ⟨nofun, fun _ => statusState_setOutcome .., nofun, nofun, fun _ other => absurd rfl other⟩
  | wrcfg | loadsrc => exact ⟨nofun, nofun, nofun, nofun, fun _ _ _ => rfl⟩
  | decode idle ends =>
    exact ⟨nofun, nofun, fun _ _ => ends.ready_or_error, fun _ notIdle => (by cases idle.symm.trans notIdle),
      fun _ _ other => absurd rfl other⟩
  | answer lookup | answerAny lookup =>
    obtain ⟨notReset, notRelease, notDecode⟩ := ne_of_isLookup lookup
    exact ⟨fun is => absurd is notReset, fun is => absurd is notRelease, fun is => absurd is notDecode,
      fun is => absurd is notDecode, fun _ _ _ => rfl⟩
  | row datapath => cases command.symm.trans datapath

/-- Settles O12: in READY the commands that write are violations, and a lookup writes its response. -/
theorem liveSurfaceIsImmutable : Obligations.LiveSurfaceIsImmutable := by
  intro i s t command notRelease notReset ready runs
  have notIdle := not_idle_of_ready ready
  have state := isReady_iff.mp ready
  cases exec_ends runs with
  | violation => exact ⟨rfl, rfl, rfl, rfl, (statusState_protocolViolation s).trans state, statusSurf_setProto s.status⟩
  | reset => exact absurd rfl notReset
  | release => exact absurd rfl notRelease
  | wrcfg idle | loadsrc idle | decode idle => cases idle.symm.trans notIdle
  | answer | answerAny => exact ⟨rfl, rfl, rfl, rfl, state, rfl⟩
  | row datapath => cases command.symm.trans datapath

/-- Settles O7: after reset STATUS is cleared and the memories are empty. -/
theorem resetStateHasInvariant : Obligations.ResetStateHasInvariant :=
  unitInv_cleared rfl rfl rfl rfl

/-- Settles O6: what is decoded is well formed, and every way of ending keeps the invariant, which does not speak of the
waiting requests. -/
theorem stepKeepsInvariant : Obligations.StepKeepsInvariant := by
  intro s t inv steps
  cases waits : s.pending with
  | nil =>
    rw [step, waits] at steps
    obtain rfl := Host.Outcome.next.inj steps
    exact inv
  | cons r rest =>
    cases decodes : decode r with
    | error why =>
      simp only [step, waits, decodes] at steps
      cases steps
    | ok i =>
      simp only [step, waits, decodes] at steps
      exact (exec_ends steps).unitInv (decodedInstructionIsWellFormed r i decodes) inv

/-- Settles O8: a host command completes from a state with the invariant, and ends as every instruction does. -/
theorem commandsAlwaysComplete : Obligations.CommandsAlwaysComplete := by
  intro i s inv command wf
  obtain ⟨t, runs⟩ := exec_command_completes inv command
  exact ⟨t, runs, (exec_ends runs).unitInv wf inv⟩

end Sys2Proof.Machine
end
